-- ==== Sys2Proof/Word.lean ====
section
/-! DEFINITION. The plain value types: bytes, port groups, time stamps, pixels, the three channels
(spec/00_scope R9, spec/10_state R21, R30, R36, R39). -/

namespace Sys2Proof

/-- A byte: 8 bits, unsigned (R9). -/
abbrev Byte := BitVec 8

/-- The name of a port group, given by its letter's code (R6 `PORT_GROUPS`, R52: a register is
named by its port group; the spec gives no numeric address). -/
abbrev PortGroup := Nat

/-- A value of `TIME` in microseconds (R39). Its width `TS_WIDTH` is a parameter, so the bound is
stated (`WellFormed`, the invariant) and not carried by the type. -/
abbrev Stamp := Nat

/-- A pixel: three independent 8-bit channels (R21). -/
structure Pixel where
  r : Byte
  g : Byte
  b : Byte
deriving DecidableEq, Repr

/-- The channels in the order they are sent: green, red, blue (R30, R55). -/
inductive Channel where
  | green | red | blue
deriving DecidableEq, Repr

end Sys2Proof
end

