-- ==== Sys2Proof/Config.lean ====
section
/-! DEFINITION. The implementation parameters of spec/00_scope R6, well-formedness of a parameter set
(R7), the parameter sets the model takes, and the free values (R93, R133). -/

namespace Sys2Proof

/-- One row of a pin map: pin number, port group, bit position (R61, R62). -/
structure Config.PinRow where
  pin : Byte
  group : PortGroup
  bit : Nat
deriving DecidableEq, Repr

/-- The parameters of R6, fixed for a whole run. `PIN_MAP` is plain data: a pin with no row
resolves to `none`, and the first row of a pin counts. The index base and padding are 0 and "not a free
parameter" (R6), so they have no field; the select codes are the constructors of `Instr` and the arms of
`decode` (R72, D2). -/
structure Config.Params where
  clockHz : Nat
  t0hNs : Nat
  t0lNs : Nat
  t1hNs : Nat
  t1lNs : Nat
  bitPeriodNs : Nat
  tolNs : Nat
  ovhT0h : Nat
  ovhT0l : Nat
  ovhT1h : Nat
  ovhT1l : Nat
  resetIntervalUs : Nat
  refreshIntervalUs : Nat
  tsWidth : Nat
  portGroups : List PortGroup
  portWidth : Nat
  pinRows : List Config.PinRow
  /-- `PATCH_LEN_OFFSET` (R75). -/
  patchLenOffset : Nat
  /-- `PATCH_DATA_OFFSET` (R75, D5). -/
  patchDataOffset : Nat
  /-- `QUAD_SIZE` (R78). -/
  quadSize : Nat
  /-- `ATTACH_LEN` (R73). -/
  attachLen : Nat
  /-- `MAX_PIXELS` (R74): derived from the width of the count, so no rule reads it. -/
  maxPixels : Nat
  errInvalidConfiguration : Nat
  errUnsupportedPlatform : Nat
  errOutOfRangeIndex : Nat
deriving DecidableEq, Repr

/-- A well-formed parameter set (R7). -/
def Config.Params.wf (P : Config.Params) : Bool :=
  decide (1 ≤ P.clockHz) && decide (1 ≤ P.tsWidth) && decide (P.portWidth = 8) &&
  P.pinRows.all (fun r => decide (r.bit < P.portWidth) && decide (r.group ∈ P.portGroups)) &&
  decide (P.errInvalidConfiguration ≠ P.errUnsupportedPlatform) &&
  decide (P.errInvalidConfiguration ≠ P.errOutOfRangeIndex) &&
  decide (P.errUnsupportedPlatform ≠ P.errOutOfRangeIndex)

/-- The payload layout of the line syntax of R91: length byte at offset 2, quadruples of four bytes from
offset 3 on (R75, R78). -/
def Config.Params.lineLayout (P : Config.Params) : Bool :=
  decide (P.patchLenOffset = 2) && decide (P.patchDataOffset = 3) && decide (P.quadSize = 4)

/-- The three error-kind codes, naturals in R6, fit the 8 bits of a report's `kind` (R93). -/
def Config.Params.codesFit (P : Config.Params) : Bool :=
  decide (P.errInvalidConfiguration < 256) && decide (P.errUnsupportedPlatform < 256) &&
  decide (P.errOutOfRangeIndex < 256)

/-- The parameter sets the model takes: the well-formed ones (R7) whose error codes are 8-bit codes
(R93), and no other. -/
structure Config.Valid where
  params : Config.Params
  wf : params.wf = true
  codesFit : params.codesFit = true
deriving DecidableEq, Repr

/-- FREE VALUE (R133, U13): the handler time, in clock cycles, between the rise and the fall of a
1-bit, for the `n`-th draw. No body: every value is possible. -/
opaque Config.jitterHigh : Nat → Nat

/-- FREE VALUE (R133, U13): the time, in clock cycles, between the end of a bit's low delay and the
next rise, for the `n`-th draw. No body: every value is possible. -/
opaque Config.jitterLow : Nat → Nat

/-- FREE VALUE (R93, U17): the text of an error report, for the `n`-th draw. No body: the message
is opaque and no rule depends on it. -/
opaque Config.errMessage : Nat → String

end Sys2Proof
end

