-- ==== Sys2Proof/Machine/Reference.lean ====
section
/-! DEFINITION. The reference configuration REF16 (spec/00_scope R6) and its pin map, the UNO map
(spec/20_memory R62). Defaults only: every statement about every state is about every parameter set. -/

namespace Sys2Proof.Machine

/-- Port group B, by its letter's code. -/
def groupB : PortGroup := 66
/-- Port group C, by its letter's code. -/
def groupC : PortGroup := 67
/-- Port group D, by its letter's code. -/
def groupD : PortGroup := 68

/-- The UNO map (R62): pins 0 to 7 on D, 8 to 13 on B, 14 to 19 on C. -/
def unoMap : List Config.PinRow :=
  [⟨0, groupD, 0⟩, ⟨1, groupD, 1⟩, ⟨2, groupD, 2⟩, ⟨3, groupD, 3⟩,
   ⟨4, groupD, 4⟩, ⟨5, groupD, 5⟩, ⟨6, groupD, 6⟩, ⟨7, groupD, 7⟩,
   ⟨8, groupB, 0⟩, ⟨9, groupB, 1⟩, ⟨10, groupB, 2⟩,
   ⟨11, groupB, 3⟩, ⟨12, groupB, 4⟩, ⟨13, groupB, 5⟩,
   ⟨14, groupC, 0⟩, ⟨15, groupC, 1⟩, ⟨16, groupC, 2⟩,
   ⟨17, groupC, 3⟩, ⟨18, groupC, 4⟩, ⟨19, groupC, 5⟩]

/-- REF16 (R6). -/
def ref16 : Config.Params where
  clockHz := 16000000
  t0hNs := 400
  t0lNs := 850
  t1hNs := 800
  t1lNs := 450
  bitPeriodNs := 1250
  tolNs := 150
  ovhT0h := 2
  ovhT0l := 2
  ovhT1h := 2
  ovhT1l := 2
  resetIntervalUs := 50
  refreshIntervalUs := 33333
  tsWidth := 32
  portGroups := [groupB, groupC, groupD]
  portWidth := 8
  pinRows := unoMap
  patchLenOffset := 2
  patchDataOffset := 3
  quadSize := 4
  attachLen := 2
  maxPixels := 255
  errInvalidConfiguration := 1
  errUnsupportedPlatform := 2
  errOutOfRangeIndex := 3

/-- REF16 is well-formed (R7), and its error codes are 8-bit codes (R93). -/
def ref16Valid : Config.Valid := ⟨ref16, by decide, by decide⟩

end Sys2Proof.Machine
end

