-- ==== Sys2Proof/Syntax.lean ====
section
/-! DEFINITION. The ten operations of the block (spec/30_encoding R70) and a command as the command
port presents it (spec/10_state R40, spec/30_encoding R71). -/

namespace Sys2Proof

/-- The ten operations of R70: five commands of the caller and five micro-operations of the
sequencer. The operands are those of R73 to R80 and R94; an ignored payload (R80) is no operand. -/
inductive Instr where
  /-- `ATTACH` (R100), payload in format CMD-A of any length (R87). -/
  | attach (p : List Byte)
  /-- `WRITE_PATCH` (R165), payload in format CMD-P of any length (R87). -/
  | writePatch (p : List Byte)
  /-- `REQUEST_SHOW` (R153), with `now` and the `t_done` it uses when it transmits (R94). -/
  | requestShow (now tDone : Stamp)
  /-- `UPDATE` (R156), same time operands (R94). -/
  | update (now tDone : Stamp)
  /-- `DETACH` (R109). -/
  | detach
  /-- `SEND_FRAME` (R144). -/
  | sendFrame
  /-- `SEND_PIXEL(i)` (R142), `i` a buffer index. -/
  | sendPixel (i : Byte)
  /-- `SEND_BYTE(v)` (R140). -/
  | sendByte (v : Byte)
  /-- `SEND_BIT0` (R126). -/
  | sendBit0
  /-- `SEND_BIT1` (R127). -/
  | sendBit1
deriving DecidableEq, Repr

/-- The outer shape of a command, format CMD (R71): select, payload, `now`; and `t_done`, the second
time operand of a command that transmits (R94, R154). -/
structure Command where
  op : BitVec 3
  payload : List Byte
  now : Stamp
  tDone : Stamp
deriving DecidableEq, Repr

end Sys2Proof
end

