-- ==== Sys2Proof/WellFormed.lean ====
section
/-! DEFINITION. Well-formed instructions: a time operand is a `TS_WIDTH`-bit value (spec/30_encoding
R71, R94). Every payload is legal as an operand (R87, R88), so no other operand has a check. -/

namespace Sys2Proof

/-- `t` is a value of a `TS_WIDTH`-bit counter (R39, R94). -/
def stampOk (w : Nat) (t : Stamp) : Bool := decide (t < 2 ^ w)

/-- Well-formed under the timestamp width `w` (R94). -/
def WellFormed (w : Nat) : Instr → Bool
  | .attach _ => true
  | .writePatch _ => true
  | .requestShow now tDone => stampOk w now && stampOk w tDone
  | .update now tDone => stampOk w now && stampOk w tDone
  | .detach => true
  | .sendFrame => true
  | .sendPixel _ => true
  | .sendByte _ => true
  | .sendBit0 => true
  | .sendBit1 => true

end Sys2Proof
end

