-- ==== Sys2Proof/Decode.lean ====
section
/-! DEFINITION. Decoding a command (spec/30_encoding R72, R85, R86) and encoding one; the wire
formats of the micro-operations (R81 to R84) as bit lists, and reading them back (R85). -/

namespace Sys2Proof

/-- Why the command port's decoder answers no instruction. -/
inductive DecodeError where
  /-- A reserved select code, 0, 6 or 7 (R86). -/
  | reservedSelect (op : BitVec 3)
deriving DecidableEq, Repr

/-- A time operand arrives on `w` wires (R71: `now[TS_WIDTH-1:0]`). -/
def toStamp (w : Nat) (t : Nat) : Stamp := t % 2 ^ w

/-- Decoding a command (R72, R85): only `op` selects; the payload of a CMD-N command is ignored
(R80); a reserved select is refused (R86). -/
def decode (w : Nat) (c : Command) : Except DecodeError Instr :=
  match c.op with
  | 1#3 => .ok (.attach c.payload)
  | 2#3 => .ok (.writePatch c.payload)
  | 3#3 => .ok (.requestShow (toStamp w c.now) (toStamp w c.tDone))
  | 4#3 => .ok (.update (toStamp w c.now) (toStamp w c.tDone))
  | 5#3 => .ok .detach
  | op => .error (.reservedSelect op)

/-- The command that carries an instruction (R72, R73, R75, R80). A micro-operation has none: the
caller cannot invoke it (R70, R144). Operands a command does not read are sent as 0. -/
def encode : Instr → Option Command
  | .attach p => some ⟨1#3, p, 0, 0⟩
  | .writePatch p => some ⟨2#3, p, 0, 0⟩
  | .requestShow now tDone => some ⟨3#3, [], now, tDone⟩
  | .update now tDone => some ⟨4#3, [], now, tDone⟩
  | .detach => some ⟨5#3, [], 0, 0⟩
  | .sendFrame => none
  | .sendPixel _ => none
  | .sendByte _ => none
  | .sendBit0 => none
  | .sendBit1 => none

/-- The bytes of the number `w` above its first `k` bytes, `n` of them, lowest first. -/
def bytesFrom (w k : Nat) : Nat → List Byte
  | 0 => []
  | n + 1 => BitVec.ofNat 8 (w >>> (8 * k)) :: bytesFrom w (k + 1) n

/-- How many payload bytes of zeros an instruction read from the opcode table is given: the fixed
length of CMD-A, the header and length byte of CMD-P, none for CMD-N (R73, R75, R80; REF16). DESIGN
CHOICE, log entry 9: the table gives a payload no bits. -/
def tablePayloadLen (op : BitVec 3) : Nat :=
  match op with
  | 1#3 => Machine.ref16.attachLen
  | 2#3 => Machine.ref16.patchDataOffset
  | _ => 0

/-- The command whose select is the low three bits of the first byte of `w`, whose payload is the
bytes above that byte (`nbits` of the table, then zeros), and whose time operands are 0. -/
def tableCommand (nbits w : Nat) : Command :=
  let op := BitVec.ofNat 3 w
  ⟨op, bytesFrom (w % 2 ^ nbits) 1 (max (nbits / 8 - 1) (tablePayloadLen op)), 0, 0⟩

/-- The instruction the decoder reads from a row of the opcode table. -/
def decodeTableWord (nbits w : Nat) : Option Instr :=
  match decode Machine.ref16.tsWidth (tableCommand nbits w) with
  | .ok i => some i
  | .error _ => none

/-! ### The wire formats -/

/-- Format W8: `v[7]` first, `v[0]` last (R82, R141). -/
def byteBits (v : Byte) : List Bool :=
  [v.getLsbD 7, v.getLsbD 6, v.getLsbD 5, v.getLsbD 4,
   v.getLsbD 3, v.getLsbD 2, v.getLsbD 1, v.getLsbD 0]

/-- Format W24: green, red, blue (R81, R143). -/
def pixelBits (px : Pixel) : List Bool :=
  byteBits px.g ++ byteBits px.r ++ byteBits px.b

/-- Format FRAME: the pixels in index order, back to back (R84, R145). -/
def frameBits (buf : List Pixel) : List Bool := buf.flatMap pixelBits

/-- What a micro-operation puts on the wire, given the buffer it reads (R81 to R84); a command has
no wire format of its own. -/
def wireBits (buf : List Pixel) : Instr → List Bool
  | .attach _ => []
  | .writePatch _ => []
  | .requestShow _ _ => []
  | .update _ _ => []
  | .detach => []
  | .sendFrame => frameBits buf
  | .sendPixel i => ((buf[i.toNat]?).map pixelBits).getD []
  | .sendByte v => byteBits v
  | .sendBit0 => [false]
  | .sendBit1 => [true]

/-- The micro-operation a symbol of format S stands for (R83). -/
def decodeSymbol (b : Bool) : Instr := if b then .sendBit1 else .sendBit0

/-- The byte eight symbols stand for: `sum over n of v[n] * 2^n` (R141). -/
def byteOfBits (b7 b6 b5 b4 b3 b2 b1 b0 : Bool) : Byte :=
  BitVec.ofNat 8 (128 * b7.toNat + 64 * b6.toNat + 32 * b5.toNat + 16 * b4.toNat +
    8 * b3.toNat + 4 * b2.toNat + 2 * b1.toNat + b0.toNat)

/-- Symbols to bytes, eight at a time, first symbol the most significant bit (R54, R85); `none` when
a partial byte is left. -/
def decodeBytes : List Bool → Option (List Byte)
  | [] => some []
  | b7 :: b6 :: b5 :: b4 :: b3 :: b2 :: b1 :: b0 :: rest =>
    (decodeBytes rest).map (byteOfBits b7 b6 b5 b4 b3 b2 b1 b0 :: ·)
  | _ => none

/-- The micro-operation a word of format W8 stands for (R82). -/
def decodeByteWord (bits : List Bool) : Option Instr :=
  match decodeBytes bits with
  | some [v] => some (.sendByte v)
  | _ => none

/-- Bytes to pixels, three at a time in the order green, red, blue (R55, R85); `none` when a partial
pixel is left. -/
def decodePixels : List Byte → Option (List Pixel)
  | [] => some []
  | g :: r :: b :: rest => (decodePixels rest).map (⟨r, g, b⟩ :: ·)
  | _ => none

/-- The pixels a frame's symbols stand for: 24 symbols make one pixel word, the `i`-th word belongs
to pixel `i` (R85). -/
def decodeFrame (bits : List Bool) : Option (List Pixel) :=
  (decodeBytes bits).bind decodePixels

end Sys2Proof
end

