-- ==== Sys2Proof/Machine/State.lean ====
section
/-! DEFINITION. The state of the block and of the platform it touches (spec/10_state R20 to R46), its
value after reset (R45), and the reasons a step can stop. -/

namespace Sys2Proof.Machine

/-- Device Configuration (R25). -/
structure DeviceConfig where
  pin : Byte
  pixelCount : Byte
  portSel : PortGroup
  pinMask : Byte
deriving DecidableEq, Repr

/-- The value of `cfg`: a record while attached, `invalid` otherwise. `invalid` is the spec's own
value (R45; R109 `cfg <- invalid`): the fields then have no defined value and nothing reads them
(R26). -/
inductive DevCfg where
  | invalid
  | valid (c : DeviceConfig)
deriving DecidableEq, Repr

/-- The sequencer's cursor (R30). -/
structure Cursor where
  pix : Byte
  ch : Channel
  bit : BitVec 3
deriving DecidableEq, Repr

/-- The three kinds of error (R180). -/
inductive ErrKind where
  | invalidConfiguration
  | unsupportedPlatform
  | outOfRangeIndex
deriving DecidableEq, Repr

/-- An event of the output trace (R11). -/
inductive Event where
  | maskEnter
  | maskExit
  | pinHigh (g : PortGroup) (m : Byte)
  | pinLow (g : PortGroup) (m : Byte)
  | wait (n : Nat)
  | dirOut (g : PortGroup) (m : Byte)
  | err (kind : Byte) (msg : String)
  | regNotify
deriving DecidableEq, Repr

/-- A segment of the waveform (R132): the line's level and how many clock cycles it lasts. -/
structure Segment where
  level : Bool
  cycles : Nat
deriving DecidableEq, Repr

/-- What the last `ATTACH` returned to the caller (R100, R192). -/
inductive AttachResult where
  | noneYet
  | success
  | failure
deriving DecidableEq, Repr

/-- What the outside does next (R38, R40, R225): the caller presents a command; the platform or
another user of its registers sets `IE` or writes a port-group register. -/
inductive Input where
  | command (c : Command)
  | setIe (b : Bool)
  | writePort (g : PortGroup) (v : Byte)
  | writeDir (g : PortGroup) (v : Byte)
deriving DecidableEq, Repr

/-- Why the machine stops with a fault. No run from reset raises one. -/
inductive Fault where
  /-- Raised by a micro-operation, and by a frame, while `cfg` is invalid: R45 says nothing reads
  its fields then. Safe. -/
  | noConfiguration
  /-- Raised by `SEND_PIXEL(i)` with `i` outside the buffer: R51 says the valid addresses are
  exactly `0 <= i < N`. Safe. -/
  | noSuchPixel
  /-- Raised by a bit operation whose configured port group, and by another user's write whose port
  group, is outside `PORT_GROUPS`: R52 gives no such register. ATTACH never configures one (R7).
  Safe. -/
  | noSuchPortGroup
deriving DecidableEq, Repr

/-- Why the machine has no step. -/
inductive Refusal where
  /-- Raised by `exec`'s arm of an instruction that has no meaning yet. Safe. -/
  | notModelled (mnemonic : String)
  /-- Raised by the command port for a reserved select code: R86 and U21 ask for a refusal. Safe. -/
  | reservedSelect (op : BitVec 3)
  /-- Raised by a platform move that would change the bit of `PORT` or `DIR` that belongs to the
  attached block: R195 and U22 give such a run no meaning. Safe. -/
  | ownPinWritten
deriving DecidableEq, Repr

/-- The state (R20). The registers `PORT[g]` and `DIR[g]` are cells keyed by port group in one
canonical form; see `Memory.wf`. -/
structure State where
  /-- The parameter set, fixed for a whole run (R6); only a well-formed one (R7) with 8-bit error
  codes (R93) can be held. -/
  config : Config.Valid
  /-- R27. -/
  attached : Bool
  /-- R28. -/
  dirty : Bool
  /-- R29. -/
  lastTx : Stamp
  /-- R25, R26. -/
  cfg : DevCfg
  /-- R22, R23: empty while unattached. -/
  buf : List Pixel
  /-- R35. -/
  busy : Bool
  /-- R30. -/
  cursor : Cursor
  /-- R34. -/
  savedIe : Bool
  /-- R34. -/
  dly : Nat
  /-- `PORT[g]` (R36). -/
  port : List Host.Cell
  /-- `DIR[g]` (R37). -/
  dir : List Host.Cell
  /-- `IE` (R38). -/
  ie : Bool
  /-- `TIME` as the platform supplied it with the last command presented (R39); the block only
  reads it. -/
  time : Stamp
  /-- The output trace (R11, R20 (d)). -/
  out : List Event
  /-- The model's own: the waveform with its draws (R132, R133). -/
  wave : List Segment
  /-- The model's own: the result handed to the caller (R100). -/
  attachResult : AttachResult
  /-- The model's own: what the outside does next, oldest first (R40, R46). -/
  inputs : List Input
  /-- The model's own: how many free values have been used; no statement rests on its value. -/
  drawIx : Nat
deriving DecidableEq, Repr

/-- The parameters of R6. -/
def State.params (s : State) : Config.Params := s.config.params

/-- The cursor at the first bit of a frame (R31: `k = 0`). -/
def Cursor.start : Cursor := ⟨0, .green, 7⟩

/-- The state after reset (R45, R210, R211), with the reference parameters (R6) and the values the
assumption log names where the spec gives none. -/
def State.reset : State where
  config := ref16Valid
  attached := false
  dirty := false
  lastTx := 0
  cfg := .invalid
  buf := []
  busy := false
  cursor := Cursor.start
  savedIe := false
  dly := 0
  port := []
  dir := []
  ie := true
  time := 0
  out := []
  wave := []
  attachResult := .noneYet
  inputs := []
  drawIx := 0

end Sys2Proof.Machine
end

