-- ==== Sys2Proof/Machine/Ops.lean ====
section
/-! DEFINITION. The named operations over the state: register cells, the port-group registers, the
pixel buffer, the output trace, pin resolution, the Device Configuration, releasing an attachment,
and raising an error (spec/20_memory, spec/60_exceptions R192). -/

namespace Sys2Proof.Machine

/-! ### Cells: one byte per key, in one canonical form -/

/-- What an unlisted register reads as: the reset value of `PORT` and `DIR` (R45). -/
def Memory.unlisted : Byte := 0

/-- The byte at `a`. -/
def Memory.read : List Host.Cell → Nat → Byte
  | [], _ => Memory.unlisted
  | (x, v) :: m, a => if x = a then v else Memory.read m a

/-- Write the byte at `a`, keeping the canonical form: writing what an unlisted cell reads as removes
the entry. -/
def Memory.write : List Host.Cell → Nat → Byte → List Host.Cell
  | [], a, v => if v = Memory.unlisted then [] else [(a, v)]
  | (x, w) :: m, a, v =>
    if a < x then (if v = Memory.unlisted then (x, w) :: m else (a, v) :: (x, w) :: m)
    else if a = x then (if v = Memory.unlisted then m else (a, v) :: m)
    else (x, w) :: Memory.write m a v

/-- The canonical form: keys strictly rising, no entry equal to what an unlisted cell reads as. -/
def Memory.wf : List Host.Cell → Bool
  | [] => true
  | (x, v) :: m => decide (v ≠ Memory.unlisted) && m.all (fun c => decide (x < c.1)) && Memory.wf m

/-! ### The PORTS address space (R50, R52) -/

/-- The mask with only bit `k` set (R25 `pin_mask`). -/
def oneHot (k : Nat) : Byte := BitVec.ofNat 8 (2 ^ k)

/-- `PORT[g]` (R36). -/
def portReg (g : PortGroup) (s : State) : Byte := Memory.read s.port g

/-- `DIR[g]` (R37). -/
def dirReg (g : PortGroup) (s : State) : Byte := Memory.read s.dir g

/-- `PORT[g] <- v`. -/
def writePortReg (g : PortGroup) (v : Byte) (s : State) : State :=
  { s with port := Memory.write s.port g v }

/-- `DIR[g] <- v`. -/
def writeDirReg (g : PortGroup) (v : Byte) (s : State) : State :=
  { s with dir := Memory.write s.dir g v }

/-- The port group `g` exists: it is a member of `PORT_GROUPS` (R6, R52). -/
def groupExists (P : Config.Params) (g : PortGroup) : Bool := decide (g ∈ P.portGroups)

/-! ### The output trace -/

/-- `emit e` (R10, R11). -/
def emit (e : Event) (s : State) : State := { s with out := s.out ++ [e] }

/-! ### Pin resolution (R61) -/

/-- `PIN_MAP(pin)`: the port group and bit position that own the pin, or `none`. -/
def pinMap (P : Config.Params) (pin : Byte) : Option (PortGroup × Nat) :=
  (P.pinRows.find? (fun r => decide (r.pin = pin))).map (fun r => (r.group, r.bit))

/-! ### The Device Configuration (R25) -/

/-- The fields of `cfg`; nothing reads them while `cfg` is invalid (R26, R45). -/
def readCfg (s : State) : Except Fault DeviceConfig :=
  match s.cfg with
  | .invalid => .error .noConfiguration
  | .valid c => .ok c

/-- The pin the engine drives: `(cfg.port_sel, cfg.pin_mask)` (R129). -/
structure Line where
  group : PortGroup
  mask : Byte
deriving DecidableEq, Repr

/-- The engine's line: `cfg` is valid and the port group it selects exists (R94, R52). -/
def readLine (s : State) : Except Fault Line :=
  match readCfg s with
  | .error f => .error f
  | .ok c =>
    if groupExists s.params c.portSel then .ok ⟨c.portSel, c.pinMask⟩
    else .error .noSuchPortGroup

/-! ### The BUF address space (R51) -/

/-- Black, the value `ATTACH` gives every pixel (R104). -/
def black : Pixel := ⟨0, 0, 0⟩

/-- Read of the whole pixel `i` (R51, R142); the valid addresses are exactly `0 <= i < N`. -/
def readPixel (i : Nat) (s : State) : Except Fault Pixel :=
  match s.buf[i]? with
  | some px => .ok px
  | none => .error .noSuchPixel

/-- One channel of a pixel. -/
def channelOf (c : Channel) (px : Pixel) : Byte :=
  match c with
  | .green => px.g
  | .red => px.r
  | .blue => px.b

/-- `MemRead(BUF, (i, c), 1) = buf[i].c` (R51). -/
def readChannel (i : Nat) (c : Channel) (s : State) : Except Fault Byte :=
  match readPixel i s with
  | .error f => .error f
  | .ok px => .ok (channelOf c px)

/-! ### Releasing an attachment (R109) -/

/-- `release()`: the buffer and the configuration cease to exist, the Driver State returns to its
reset values (R101, R109); nothing else is written (R110). -/
def release (s : State) : State :=
  { s with buf := [], cfg := .invalid, attached := false, dirty := false, lastTx := 0 }

/-! ### Taking an exception: raising an error (R192) -/

/-- The parameter of R6 that gives an error kind its code (D11). -/
def errParam (P : Config.Params) : ErrKind → Nat
  | .invalidConfiguration => P.errInvalidConfiguration
  | .unsupportedPlatform => P.errUnsupportedPlatform
  | .outOfRangeIndex => P.errOutOfRangeIndex

/-- The 8-bit `kind` of a report (R93, R180). -/
def errCode (P : Config.Params) (k : ErrKind) : Byte := BitVec.ofNat 8 (errParam P k)

/-- `raise Err(kind)`: emits `ERR(kind, msg)` and does nothing else (R192): no handler, no vector, no
saved context, no mode change, `IE` untouched; control returns to the caller, and what else the
error leaves is the raising rule's. The message is a free value (R93, U17). -/
def raiseErr (k : ErrKind) (s : State) : State :=
  { emit (.err (errCode s.params k) (Config.errMessage s.drawIx)) s with drawIx := s.drawIx + 1 }

/-- The return from an error: to the caller with the result `failure` (R192 (3), R194: there is no
handler, so nothing is restored). -/
def returnFailure (s : State) : State := { s with attachResult := .failure }

/-! ### From a run of operations to an outcome -/

/-- The outcome of a meaning: a next state or the fault it ran into. -/
def toOutcome (r : Except Fault State) : Host.Outcome State Fault Refusal :=
  match r with
  | .ok s => .next s
  | .error f => .fault f

end Sys2Proof.Machine
end

