-- ==== Sys2Proof/Machine/Operands.lean ====
section
/-! DEFINITION. Operand assembly: the payload formats CMD-A and CMD-P (spec/30_encoding R73 to R79) and
the PAYLOAD address space (spec/20_memory R53). -/

namespace Sys2Proof.Machine

/-- The fields of an attach payload, pin `p[0]` and pixel count `p[1]` (R74): `none` unless there are
exactly `ATTACH_LEN` bytes (R73, R102) and both fields are among them (R53: never read past the
end). -/
def attachFields (P : Config.Params) (p : List Byte) : Option (Byte × Byte) :=
  if p.length = P.attachLen then
    match p with
    | pin :: count :: _ => some (pin, count)
    | _ => none
  else none

/-- The length byte `L` of a patch payload, at `PATCH_LEN_OFFSET` (R75, R77), `none` when the payload
ends before it (R172). -/
def patchLen (P : Config.Params) (p : List Byte) : Option Byte := p[P.patchLenOffset]?

/-- The number of quadruples (R79): `floor(min(L, len(p) - PATCH_DATA_OFFSET) / QUAD_SIZE)`; 0 where
there is no length byte. -/
def nQuads (P : Config.Params) (p : List Byte) : Nat :=
  match patchLen P p with
  | some len => min len.toNat (p.length - P.patchDataOffset) / P.quadSize
  | none => 0

/-- Format Q, one quadruple: index, red, green, blue (R78). -/
structure Quad where
  idx : Byte
  red : Byte
  green : Byte
  blue : Byte
deriving DecidableEq, Repr

/-- The pixel a quadruple carries (R169: byte `+1` to `r`, `+2` to `g`, `+3` to `b`). -/
def quadPixel (q : Quad) : Pixel := ⟨q.red, q.green, q.blue⟩

/-- The quadruple that starts here: index, red, green, blue (R78); a partial group is none (R57). -/
def quadAt : List Byte → Option Quad
  | i :: r :: g :: b :: _ => some ⟨i, r, g, b⟩
  | _ => none

/-- Up to `n` quadruples, one every `size` bytes; a partial group ends the list (R57, R79). -/
def takeQuads (size : Nat) : Nat → List Byte → List Quad
  | 0, _ => []
  | n + 1, p =>
    match quadAt p with
    | some q => q :: takeQuads size n (p.drop size)
    | none => []

/-- The quadruples of a patch payload, in payload order (R79, R166). -/
def quads (P : Config.Params) (p : List Byte) : List Quad :=
  takeQuads P.quadSize (nQuads P p) (p.drop P.patchDataOffset)

/-- The four bytes of a quadruple in payload order (R78). -/
def quadBytes (q : Quad) : List Byte := [q.idx, q.red, q.green, q.blue]

/-- The payload the line syntax `PATCH q0,q1,...` stands for (R91): header bytes 0, the length byte,
then the quadruples, in the layout of `Config.Params.lineLayout`. -/
def patchPayload (qs : List Quad) : List Byte :=
  [0, 0, BitVec.ofNat 8 (4 * qs.length)] ++ qs.flatMap quadBytes

/-- A well-formed patch payload (R77): a length byte that is a multiple of `QUAD_SIZE` and names exactly
the bytes that follow. Any other payload is legal too (R87). -/
def tidyPatch (P : Config.Params) (p : List Byte) : Bool :=
  match patchLen P p with
  | some len => decide (len.toNat % P.quadSize = 0) &&
      decide (p.length = P.patchDataOffset + len.toNat)
  | none => false

end Sys2Proof.Machine
end

