-- ==== Sys2Proof/Machine/Attach.lean ====
section
/-! DEFINITION. Attachment and configuration: ATTACH and DETACH (spec/40_attach_config). -/

namespace Sys2Proof.Machine

/-- A failed attach: the report, and the result `failure` to the caller (R102, R103, R108). -/
def attachFails (k : ErrKind) (s : State) : State := returnFailure (raiseErr k s)

/-- The pin becomes an output: one bit of `DIR[g]` (R105); `PORT` is not written. -/
def makeOutput (g : PortGroup) (m : Byte) (s : State) : State :=
  emit (.dirOut g m) (writeDirReg g (dirReg g s ||| m) s)

/-- Steps 3 to 6 of `ATTACH` (R100): the blank buffer (R104), the pin (R105), the state (R106), the
registry (R107), the result. -/
def attachTo (pin count : Byte) (g : PortGroup) (k : Nat) (s : State) : State :=
  let s1 := { s with buf := List.replicate count.toNat black }
  let s2 := makeOutput g (oneHot k) s1
  let s3 := { s2 with cfg := .valid ⟨pin, count, g, oneHot k⟩, attached := true, dirty := true,
                      lastTx := 0 }
  { emit .regNotify s3 with attachResult := .success }

/-- `ATTACH` (R100): release first when attached (R101), then the length (R102), then the pin
(R103, R191), then the attachment. -/
def attach (p : List Byte) (s : State) : State :=
  let s0 := if s.attached then release s else s
  match attachFields s0.params p with
  | none => attachFails .invalidConfiguration s0
  | some (pin, count) =>
    match pinMap s0.params pin with
    | none => attachFails .unsupportedPlatform s0
    | some (g, k) => attachTo pin count g k s0

/-- `DETACH` (R109). -/
def detach (s : State) : State := if s.attached then release s else s

/-- The meaning of `ATTACH` (R100). -/
def execAttach (p : List Byte) (s : State) : Host.Outcome State Fault Refusal :=
  toOutcome (.ok (attach p s))

/-- The meaning of `DETACH` (R109). -/
def execDetach (s : State) : Host.Outcome State Fault Refusal := toOutcome (.ok (detach s))

end Sys2Proof.Machine
end

