-- ==== Sys2Proof/Machine/Buffer.lean ====
section
/-! DEFINITION. The buffer command WRITE_PATCH (spec/44_buffer_commands). -/

namespace Sys2Proof.Machine

/-- A quadruple's index is inside the buffer (R63, R167). -/
def inRange (n : Nat) (q : Quad) : Bool := decide (q.idx.toNat < n)

/-- Apply one quadruple: the whole pixel is replaced (R58, R169), an out-of-range one is ignored
(R167). -/
def applyQuad (n : Nat) (q : Quad) (buf : List Pixel) : List Pixel :=
  if inRange n q then buf.set q.idx.toNat (quadPixel q) else buf

/-- Apply quadruples in payload order, first to last (R168). -/
def applyQuads (n : Nat) : List Quad → List Pixel → List Pixel
  | [], buf => buf
  | q :: qs, buf => applyQuads n qs (applyQuad n q buf)

/-- At least one quadruple was out of range (R165 `oor`). -/
def anyOutOfRange (n : Nat) (qs : List Quad) : Bool := qs.any (fun q => !inRange n q)

/-- The buffer with the quadruples applied, and `dirty <- 1` (R165, R170). -/
def patched (n : Nat) (qs : List Quad) (s : State) : State :=
  { s with buf := applyQuads n qs s.buf, dirty := true }

/-- `WRITE_PATCH` (R165): ignored while unattached and for a payload without a length byte (R172);
else the quadruples, then `dirty` (R170), then at most one report (R173). -/
def writePatch (p : List Byte) (s : State) : Except Fault State :=
  if s.attached = false then .ok s
  else
    match patchLen s.params p with
    | none => .ok s
    | some _ =>
      match readCfg s with
      | .error f => .error f
      | .ok c =>
        let n := c.pixelCount.toNat
        let qs := quads s.params p
        let t := patched n qs s
        .ok (if anyOutOfRange n qs then raiseErr .outOfRangeIndex t else t)

/-- The meaning of `WRITE_PATCH` (R165). -/
def execWritePatch (p : List Byte) (s : State) : Host.Outcome State Fault Refusal :=
  toOutcome (writePatch p s)

end Sys2Proof.Machine
end

