-- ==== Sys2Proof/Machine/Flags.lean ====
section
/-! DEFINITION. The flag and time computations: the delay constants (spec/41_transmission_engine R121 to
R123), elapsed time and the two gates (spec/43_scheduler R151, R152), the scheduler's view
(spec/10_state R32). -/

namespace Sys2Proof.Machine

/-- The four phases of the two symbols (R83, R120). -/
inductive Phase where
  | t0h | t0l | t1h | t1l
deriving DecidableEq, Repr

/-- `x_NS` (R6). -/
def phaseNs (P : Config.Params) : Phase → Nat
  | .t0h => P.t0hNs
  | .t0l => P.t0lNs
  | .t1h => P.t1hNs
  | .t1l => P.t1lNs

/-- `OVH_x` (R6, R123). -/
def phaseOvh (P : Config.Params) : Phase → Nat
  | .t0h => P.ovhT0h
  | .t0l => P.ovhT0l
  | .t1h => P.ovhT1h
  | .t1l => P.ovhT1l

/-- `rnd(num / den)`: the nearest natural, a tie going up, `floor(q + 1/2)` (R121). -/
def rnd (num den : Nat) : Nat := (2 * num + den) / (2 * den)

/-- `NOM_x`, the nominal width in cycles (R122). -/
def nom (P : Config.Params) (x : Phase) : Nat := rnd (phaseNs P x * P.clockHz) 1000000000

/-- `D_x`, the delay constant, with the clamp (R122). -/
def delay (P : Config.Params) (x : Phase) : Nat :=
  if phaseOvh P x ≤ nom P x then nom P x - phaseOvh P x else 0

/-- `W_x`, the width of the phase edge to edge (R123). -/
def width (P : Config.Params) (x : Phase) : Nat := delay P x + phaseOvh P x

/-- The high phase of a symbol. -/
def highPhase (b : Bool) : Phase := if b then .t1h else .t0h

/-- The low phase of a symbol. -/
def lowPhase (b : Bool) : Phase := if b then .t1l else .t0l

/-- `elapsed(now, then) = (now - then) mod 2^TS_WIDTH` (R151). -/
def elapsed (w : Nat) (now since : Stamp) : Nat :=
  (((now : Int) - (since : Int)) % ((2 ^ w : Nat) : Int)).toNat

/-- `reset_gap_ok(now)` (R152). -/
def resetGapOk (now : Stamp) (s : State) : Bool :=
  decide (s.params.resetIntervalUs ≤ elapsed s.params.tsWidth now s.lastTx)

/-- `refresh_ok(now)` (R152). -/
def refreshOk (now : Stamp) (s : State) : Bool :=
  decide (s.params.refreshIntervalUs ≤ elapsed s.params.tsWidth now s.lastTx)

/-- The scheduler's two named states (R32). -/
inductive Sched where
  | idle
  | pendingShow
deriving DecidableEq, Repr

/-- The scheduler state, a view of the Driver State (R32, D24). -/
def sched (s : State) : Sched := if s.attached && s.dirty then .pendingShow else .idle

end Sys2Proof.Machine
end

