-- ==== Sys2Proof/Machine/Engine.lean ====
section
/-! DEFINITION. The transmission engine: the critical section, the port-bit operations, the busy-wait,
SEND_BIT0 and SEND_BIT1 (spec/41_transmission_engine). -/

namespace Sys2Proof.Machine

/-- `MASK_ENTER` (R128): `saved_ie <- IE ; IE <- 0`. -/
def maskEnter (s : State) : State := emit .maskEnter { s with savedIe := s.ie, ie := false }

/-- `MASK_EXIT` (R128): `IE <- saved_ie`. -/
def maskExit (s : State) : State := emit .maskExit { s with ie := s.savedIe }

/-- Set-bit-high (R124). -/
def setHigh (l : Line) (s : State) : State :=
  emit (.pinHigh l.group l.mask) (writePortReg l.group (portReg l.group s ||| l.mask) s)

/-- Set-bit-low (R125). -/
def setLow (l : Line) (s : State) : State :=
  emit (.pinLow l.group l.mask) (writePortReg l.group (portReg l.group s &&& ~~~l.mask) s)

/-- The down-counter runs out: one cycle a count (R34, R130). -/
def countDown : Nat → State → State
  | 0, s => { s with dly := 0 }
  | n + 1, s => countDown n { s with dly := n }

/-- `wait n` (R10, R130): exactly `n` cycles, nothing else. -/
def wait (n : Nat) (s : State) : State := emit (.wait n) (countDown n { s with dly := n })

/-- The channel after this one on the wire (R31, R55). -/
def nextChannel : Channel → Channel
  | .green => .red
  | .red => .blue
  | .blue => .green

/-- The cursor's advance by one bit (R31): bits 7 down to 0, then the next channel, then the next
pixel. -/
def Cursor.next (c : Cursor) : Cursor :=
  if c.bit = 0 then
    { pix := if c.ch = .blue then c.pix + 1 else c.pix, ch := nextChannel c.ch, bit := 7 }
  else { c with bit := c.bit - 1 }

/-- The number of a channel on the wire: 0 green, 1 red, 2 blue (R30). -/
def channelNo : Channel → Nat
  | .green => 0
  | .red => 1
  | .blue => 2

/-- The linear form of the cursor, the number of bits already sent (R30). -/
def Cursor.linear (c : Cursor) : Nat := 24 * c.pix.toNat + 8 * channelNo c.ch + (7 - c.bit.toNat)

/-- Each bit operation advances the cursor by one (R31). -/
def advance (s : State) : State := { s with cursor := s.cursor.next }

/-- The high-phase draw of a symbol (R133): 0 for a 0, 0 when `IE = 0`, else any natural. -/
def drawHigh (b ie : Bool) (n : Nat) : Nat := if b && ie then Config.jitterHigh n else 0

/-- The two segments of a symbol (R132), with the draws of R133. -/
def symbolWave (P : Config.Params) (b ie : Bool) (n : Nat) : List Segment :=
  [⟨true, width P (highPhase b) + drawHigh b ie n⟩,
   ⟨false, width P (lowPhase b) + Config.jitterLow n⟩]

/-- Record what the line carried for one symbol (R132): uses one draw. -/
def recordSymbol (b : Bool) (s : State) : State :=
  { s with wave := s.wave ++ symbolWave s.params b s.ie s.drawIx, drawIx := s.drawIx + 1 }

/-- The body of `SEND_BIT0` on its line (R126). -/
def bit0On (l : Line) (s : State) : State :=
  recordSymbol false (advance (maskExit
    (wait (delay s.params .t0l) (setLow l
      (wait (delay s.params .t0h) (setHigh l
        (maskEnter s)))))))

/-- The body of `SEND_BIT1` on its line (R127). -/
def bit1On (l : Line) (s : State) : State :=
  recordSymbol true (advance
    (wait (delay s.params .t1l) (setLow l
      (wait (delay s.params .t1h) (setHigh l s)))))

/-- `SEND_BIT0` (R126). -/
def sendBit0 (s : State) : Except Fault State :=
  match readLine s with
  | .error f => .error f
  | .ok l => .ok (bit0On l s)

/-- `SEND_BIT1` (R127). -/
def sendBit1 (s : State) : Except Fault State :=
  match readLine s with
  | .error f => .error f
  | .ok l => .ok (bit1On l s)

/-- The engine invoked with a bit's Boolean value (R54, R140). -/
def sendBit (b : Bool) (s : State) : Except Fault State := if b then sendBit1 s else sendBit0 s

/-- The meaning of `SEND_BIT0` (R126). -/
def execSendBit0 (s : State) : Host.Outcome State Fault Refusal := toOutcome (sendBit0 s)

/-- The meaning of `SEND_BIT1` (R127). -/
def execSendBit1 (s : State) : Host.Outcome State Fault Refusal := toOutcome (sendBit1 s)

end Sys2Proof.Machine
end

