-- ==== Sys2Proof/Machine/Serializer.lean ====
section
/-! DEFINITION. The byte and pixel serializer: SEND_BYTE, SEND_PIXEL, SEND_FRAME
(spec/42_serializer). -/

namespace Sys2Proof.Machine

/-- Bits sent one after another, with no pause between them (R140, R146). -/
def sendBits : List Bool → State → Except Fault State
  | [], s => .ok s
  | b :: bs, s =>
    match sendBit b s with
    | .error f => .error f
    | .ok t => sendBits bs t

/-- `SEND_BYTE(v)`: bit 7 first, bit 0 last (R140). -/
def sendByte (v : Byte) (s : State) : Except Fault State := sendBits (byteBits v) s

/-- `SEND_PIXEL(i)`: one read of the pixel, then green, red, blue (R142). -/
def sendPixel (i : Nat) (s : State) : Except Fault State :=
  match readPixel i s with
  | .error f => .error f
  | .ok px =>
    match sendByte px.g s with
    | .error f => .error f
    | .ok s1 =>
      match sendByte px.r s1 with
      | .error f => .error f
      | .ok s2 => sendByte px.b s2

/-- The pixels `i, i + 1, ...`, `n` of them, in index order (R144). -/
def sendPixels : Nat → Nat → State → Except Fault State
  | 0, _, s => .ok s
  | n + 1, i, s =>
    match sendPixel i s with
    | .error f => .error f
    | .ok t => sendPixels n (i + 1) t

/-- The start of a frame: `busy <- 1`, the cursor at the first bit (R31, R144). -/
def startFrame (s : State) : State := { s with busy := true, cursor := Cursor.start }

/-- The end of a frame: `busy <- 0` (R31, R144). -/
def endFrame (s : State) : State := { s with busy := false }

/-- `SEND_FRAME()`: every pixel of the buffer from index 0, `busy` 1 during and 0 after; the cursor
starts at the first bit (R31, R144). -/
def sendFrame (s : State) : Except Fault State :=
  match readCfg s with
  | .error f => .error f
  | .ok c =>
    match sendPixels c.pixelCount.toNat 0 (startFrame s) with
    | .error f => .error f
    | .ok t => .ok (endFrame t)

/-- The meaning of `SEND_BYTE` (R140). -/
def execSendByte (v : Byte) (s : State) : Host.Outcome State Fault Refusal :=
  toOutcome (sendByte v s)

/-- The meaning of `SEND_PIXEL` (R142). -/
def execSendPixel (i : Byte) (s : State) : Host.Outcome State Fault Refusal :=
  toOutcome (sendPixel i.toNat s)

/-- The meaning of `SEND_FRAME` (R144). -/
def execSendFrame (s : State) : Host.Outcome State Fault Refusal := toOutcome (sendFrame s)

end Sys2Proof.Machine
end

