-- ==== Sys2Proof/Machine/Scheduler.lean ====
section
/-! DEFINITION. The frame scheduler: REQUEST_SHOW and UPDATE (spec/43_scheduler). -/

namespace Sys2Proof.Machine

/-- A frame is complete: `last_tx <- t_done ; dirty <- 0` (R153, R154). -/
def frameShown (tDone : Stamp) (s : State) : State := { s with lastTx := tDone, dirty := false }

/-- `REQUEST_SHOW` (R153): ignored while unattached (R160), dropped without any effect inside the
reset interval (R155), else one whole frame, then the timestamp and the dirty flag (R154). -/
def requestShow (now tDone : Stamp) (s : State) : Except Fault State :=
  if s.attached = false then .ok s
  else if resetGapOk now s = false then .ok s
  else
    match sendFrame s with
    | .error f => .error f
    | .ok t => .ok (frameShown tDone t)

/-- `UPDATE` (R156): nothing while unattached, while clean, or inside the refresh interval; else the
show logic with its own gate (R157). -/
def updateTick (now tDone : Stamp) (s : State) : Except Fault State :=
  if s.attached = false then .ok s
  else if s.dirty = false then .ok s
  else if refreshOk now s = false then .ok s
  else requestShow now tDone s

/-- The meaning of `REQUEST_SHOW` (R153). -/
def execRequestShow (now tDone : Stamp) (s : State) : Host.Outcome State Fault Refusal :=
  toOutcome (requestShow now tDone s)

/-- The meaning of `UPDATE` (R156). -/
def execUpdate (now tDone : Stamp) (s : State) : Host.Outcome State Fault Refusal :=
  toOutcome (updateTick now tDone s)

end Sys2Proof.Machine
end

