-- ==== Sys2Proof/Machine/Dispatch.lean ====
section
/-! DEFINITION. One arm per instruction: the meaning of each. -/

namespace Sys2Proof.Machine

def exec (i : Instr) (s : State) : Host.Outcome State Fault Refusal :=
  match i with
  | .attach p => Sys2Proof.Machine.execAttach p s
  | .writePatch p => Sys2Proof.Machine.execWritePatch p s
  | .requestShow now tDone => Sys2Proof.Machine.execRequestShow now tDone s
  | .update now tDone => Sys2Proof.Machine.execUpdate now tDone s
  | .detach => Sys2Proof.Machine.execDetach s
  | .sendFrame => Sys2Proof.Machine.execSendFrame s
  | .sendPixel k => Sys2Proof.Machine.execSendPixel k s
  | .sendByte v => Sys2Proof.Machine.execSendByte v s
  | .sendBit0 => Sys2Proof.Machine.execSendBit0 s
  | .sendBit1 => Sys2Proof.Machine.execSendBit1 s

end Sys2Proof.Machine
end

