-- ==== Sys2Proof/Machine/Platform.lean ====
section
/-! DEFINITION. What the platform and the other users of its registers do between commands: they set
`IE` (spec/10_state R38) and write other bits of `PORT` and `DIR` (spec/70 R225). -/

namespace Sys2Proof.Machine

/-- The bits of group `g` that belong to the attached block (R36, R225). -/
def ownMask (g : PortGroup) (s : State) : Byte :=
  match s.attached, s.cfg with
  | true, .valid c => if c.portSel = g then c.pinMask else 0
  | _, _ => 0

/-- Changing a register from `old` to `new` leaves the bits of `own` alone. -/
def keepsBits (own old new : Byte) : Bool := decide ((old ^^^ new) &&& own = 0)

/-- `IE` is the caller's outside the block (R38). -/
def setIe (b : Bool) (s : State) : Host.Outcome State Fault Refusal := .next { s with ie := b }

/-- Another user writes `PORT[g]`: its own bits only (R225); the block's bit is the block's, and a
write of it has no meaning (R195, U22). -/
def otherWritesPort (g : PortGroup) (v : Byte) (s : State) : Host.Outcome State Fault Refusal :=
  if groupExists s.params g = false then .fault .noSuchPortGroup
  else if keepsBits (ownMask g s) (portReg g s) v then .next (writePortReg g v s)
  else .refused .ownPinWritten

/-- Another user writes `DIR[g]`, under the same rule (R225). -/
def otherWritesDir (g : PortGroup) (v : Byte) (s : State) : Host.Outcome State Fault Refusal :=
  if groupExists s.params g = false then .fault .noSuchPortGroup
  else if keepsBits (ownMask g s) (dirReg g s) v then .next (writeDirReg g v s)
  else .refused .ownPinWritten

end Sys2Proof.Machine
end

