-- ==== Sys2Proof/Machine/Fetch.lean ====
section
/-! DEFINITION. What runs next: the sequencer while a frame is in progress, else the caller or the
platform (spec/00_scope R8, spec/10_state R30, R35, R40). -/

namespace Sys2Proof.Machine

/-- What a step is about to do. -/
inductive Fetched where
  /-- Run an instruction in a state. -/
  | run (i : Instr) (s : State)
  /-- The outcome is already known: a platform move, the end of a frame, nothing to do. -/
  | done (o : Host.Outcome State Fault Refusal)

/-- The caller presents a command (R40): the platform's counter has the value `now` (R39), and the
decoder reads the command with it (R85); a reserved select is refused (R86). -/
def fetchCommand (c : Command) (s : State) : Fetched :=
  let t := { s with time := toStamp s.params.tsWidth c.now }
  match decode s.params.tsWidth c with
  | .ok i => .run i t
  | .error (.reservedSelect op) => .done (.refused (.reservedSelect op))

/-- The sequencer in mid-frame (R30, R31): the bit at the cursor chooses `SEND_BIT0` or `SEND_BIT1`;
after the last bit the frame is complete and `busy <- 0`. -/
def fetchBit (s : State) : Fetched :=
  match readCfg s with
  | .error f => .done (.fault f)
  | .ok c =>
    if s.cursor.linear < 24 * c.pixelCount.toNat then
      match readChannel s.cursor.pix.toNat s.cursor.ch s with
      | .error f => .done (.fault f)
      | .ok v => .run (decodeSymbol (v.getLsbD s.cursor.bit.toNat)) s
    else .done (.next (endFrame s))

/-- The next move of the outside, taken off the queue; with none the block idles. -/
def fetchInput (s : State) : Fetched :=
  match s.inputs with
  | [] => .done (.next s)
  | .command c :: rest => fetchCommand c { s with inputs := rest }
  | .setIe b :: rest => .done (setIe b { s with inputs := rest })
  | .writePort g v :: rest => .done (otherWritesPort g v { s with inputs := rest })
  | .writeDir g v :: rest => .done (otherWritesDir g v { s with inputs := rest })

/-- No command can start while `busy = 1` (R35). -/
def fetch (s : State) : Fetched := if s.busy then fetchBit s else fetchInput s

/-- Put a command in front of the queue of a block that is not busy, so that the next step takes
it. -/
def present (c : Command) (s : State) : State :=
  { s with busy := false, inputs := .command c :: s.inputs }

end Sys2Proof.Machine
end

