-- ==== Sys2Proof/Machine/Observe.lean ====
section
/-! DEFINITION. Reading the output trace and the waveform (spec/41_transmission_engine R131, R132, R134;
spec/42_serializer R149), and an informative receiver (spec/30_encoding R85, spec/70 R226). -/

namespace Sys2Proof.Machine

/-- The scan of R131: one bit per `PIN_HIGH`, `0` if the event just before it is `MASK_ENTER`. -/
def bitsScan : Bool → List Event → List Bool
  | _, [] => []
  | _, .maskEnter :: es => bitsScan true es
  | entered, .pinHigh _ _ :: es => (!entered) :: bitsScan false es
  | _, .maskExit :: es => bitsScan false es
  | _, .pinLow _ _ :: es => bitsScan false es
  | _, .wait _ :: es => bitsScan false es
  | _, .dirOut _ _ :: es => bitsScan false es
  | _, .err _ _ :: es => bitsScan false es
  | _, .regNotify :: es => bitsScan false es

/-- `bits(out)` (R131). -/
def bits (out : List Event) : List Bool := bitsScan false out

/-- The trace of one bit operation (R126, R127). -/
def symbolTrace (P : Config.Params) (l : Line) (b : Bool) : List Event :=
  if b then
    [.pinHigh l.group l.mask, .wait (delay P .t1h), .pinLow l.group l.mask, .wait (delay P .t1l)]
  else
    [.maskEnter, .pinHigh l.group l.mask, .wait (delay P .t0h), .pinLow l.group l.mask,
     .wait (delay P .t0l), .maskExit]

/-- The trace of a sequence of bit operations, with nothing between them (R146). -/
def bitsTrace (P : Config.Params) (l : Line) (bs : List Bool) : List Event :=
  bs.flatMap (symbolTrace P l)

/-- The waveform of a sequence of symbols from draw number `n` on (R132, R133). -/
def bitsWave (P : Config.Params) (ie : Bool) : Nat → List Bool → List Segment
  | _, [] => []
  | n, b :: bs => symbolWave P b ie n ++ bitsWave P ie (n + 1) bs

/-- The nominal waveform: every draw 0 (R132). -/
def nominalWave (P : Config.Params) (bs : List Bool) : List Segment :=
  bs.flatMap fun b => [⟨true, width P (highPhase b)⟩, ⟨false, width P (lowPhase b)⟩]

/-- The nominal duration of a sequence of symbols, in clock cycles (R149). -/
def nominalCycles (P : Config.Params) : List Bool → Nat
  | [] => 0
  | b :: bs => width P (highPhase b) + width P (lowPhase b) + nominalCycles P bs

/-- The nominal duration of a sequence of symbols in whole microseconds (R154). -/
def nominalMicros (P : Config.Params) (bs : List Bool) : Nat :=
  nominalCycles P bs * 1000000 / P.clockHz

/-- The cycles a waveform lasts. -/
def waveCycles (w : List Segment) : Nat := (w.map Segment.cycles).sum

/-- The envelope check of one phase (R134): `| W_x * 10^9 / CLOCK_HZ - x_NS | <= TOL_NS`, multiplied
out by `CLOCK_HZ`. Informative: the block never evaluates it. -/
def phaseInEnvelope (P : Config.Params) (x : Phase) : Bool :=
  decide (width P x * 1000000000 ≤ (phaseNs P x + P.tolNs) * P.clockHz) &&
  decide (phaseNs P x * P.clockHz ≤ width P x * 1000000000 + P.tolNs * P.clockHz)

/-- All four phases are inside the envelope (R134). -/
def inEnvelope (P : Config.Params) : Bool :=
  phaseInEnvelope P .t0h && phaseInEnvelope P .t0l && phaseInEnvelope P .t1h &&
  phaseInEnvelope P .t1l

/-- A receiver that measures the high phase of each symbol (R85): short is 0, long is 1, told apart
at `thr` cycles. -/
def receive (thr : Nat) : List Segment → List Bool
  | [] => []
  | ⟨true, c⟩ :: w => decide (thr ≤ c) :: receive thr w
  | ⟨false, _⟩ :: w => receive thr w

/-- The level of the block's line (R41): bit `k` of `PORT[g]` where bit `k` of `DIR[g]` is 1, for the
mask `m` of that bit; `none` while the pin is an input. -/
def lineLevel (l : Line) (s : State) : Option Bool :=
  if dirReg l.group s &&& l.mask = 0 then none
  else some (decide (portReg l.group s &&& l.mask ≠ 0))

end Sys2Proof.Machine
end

