-- ==== Sys2Proof/Machine/Pseudo.lean ====
section
/-! DEFINITION. The pseudo-instructions of spec/30_encoding R92, each a list of commands. None is an
operation of its own. -/

namespace Sys2Proof.Machine

/-- `PATCH q0,q1,...` (R91). -/
def patchOf (qs : List Quad) : Instr := .writePatch (patchPayload qs)

/-- `SETPIX i,r,g,b` (R92). -/
def setPix (i : Byte) (px : Pixel) : List Instr := [patchOf [⟨i, px.r, px.g, px.b⟩]]

/-- The quadruples that give the pixels `i, i + 1, ...` the listed values. -/
def quadsFrom : Nat → List Pixel → List Quad
  | _, [] => []
  | i, px :: pxs => ⟨BitVec.ofNat 8 i, px.r, px.g, px.b⟩ :: quadsFrom (i + 1) pxs

/-- Consecutive commands of at most 63 quadruples each (R92, R175); `n` bounds their number. R92 does not
say how the quadruples are shared out: 63 in every command but the last is the model's choice (log entry
18, DESIGN CHOICE). -/
def splitPatches : Nat → List Quad → List Instr
  | 0, _ => []
  | n + 1, qs =>
    if qs.length ≤ 63 then [patchOf qs]
    else patchOf (qs.take 63) :: splitPatches n (qs.drop 63)

/-- `REPLACE px0,px1,...` (R92): a patch of all pixels, split as needed. -/
def replaceAll (pxs : List Pixel) : List Instr :=
  splitPatches (pxs.length + 1) (quadsFrom 0 pxs)

/-- `FILL r,g,b` for a buffer of `n` pixels (R92); for `n = 0` a patch with no quadruple. -/
def fill (n : Nat) (px : Pixel) : List Instr := replaceAll (List.replicate n px)

/-- `CLEAR` (R92). -/
def clear (n : Nat) : List Instr := fill n black

/-- `TICK @T` (R92). -/
def tick (now tDone : Stamp) : List Instr := [.update now tDone]

end Sys2Proof.Machine
end

