-- ==== Sys2Proof/Safety.lean ====
section
/-! DEFINITION. The terms claims are stated in: the invariant (spec/10_state R47), what sending bits does
to a state, the discipline of the output trace (spec/41 R128), and runs of several commands. -/

namespace Sys2Proof.Safety

open Sys2Proof.Machine

/-- What holds of the block while it is attached (R47 (ii)): a valid configuration, a buffer of the
configured length, the line its pin resolves to, and that pin an output. -/
structure Live (s : State) (c : DeviceConfig) (k : Nat) : Prop where
  cfg : s.cfg = .valid c
  bufLength : s.buf.length = c.pixelCount.toNat
  resolves : pinMap s.params c.pin = some (c.portSel, k)
  mask : c.pinMask = oneHot k
  isOutput : dirReg c.portSel s &&& c.pinMask = c.pinMask

/-- The invariant of the machine: register files in canonical form, a timestamp of `TS_WIDTH` bits
(R29), and R47 (i) and (ii). The parameter set needs no clause: a state holds only a well-formed one
(R7, `Config.Valid`). -/
structure BlockInv (s : State) : Prop where
  portWf : Memory.wf s.port = true
  dirWf : Memory.wf s.dir = true
  lastTxWidth : s.lastTx < 2 ^ s.params.tsWidth
  unattached : s.attached = false →
    s.buf = [] ∧ s.dirty = false ∧ s.lastTx = 0 ∧ s.cfg = .invalid
  attached : s.attached = true → ∃ c k, Live s c k
  busyAttached : s.busy = true → s.attached = true

/-- The cursor stays inside the frame while one is in progress (R30, R31). -/
def CursorInFrame (s : State) : Prop :=
  ∀ c, s.busy = true → s.cfg = .valid c → s.cursor.linear ≤ 24 * c.pixelCount.toNat

/-- What `SEND_BIT0`, `SEND_BIT1` and any sequence of them leave unchanged: everything but the one
port bit, the trace, the waveform, the cursor, the engine's hidden registers and the draw count. -/
structure EngineFrame (s t : State) : Prop where
  config : t.config = s.config
  attached : t.attached = s.attached
  dirty : t.dirty = s.dirty
  lastTx : t.lastTx = s.lastTx
  cfg : t.cfg = s.cfg
  buf : t.buf = s.buf
  dir : t.dir = s.dir
  ie : t.ie = s.ie
  time : t.time = s.time
  attachResult : t.attachResult = s.attachResult
  inputs : t.inputs = s.inputs

/-- `PORT` after the bits `bs` went out on the line `l`: the line's bit is 0 if a bit was sent, every
other bit of every port group is as it was (R36, R124 to R127). -/
def PortAfterBits (l : Line) (bs : List Bool) (s t : State) : Prop :=
  ∀ g, portReg g t =
    if g = l.group ∧ bs ≠ [] then portReg g s &&& ~~~l.mask else portReg g s

/-- What sending the bits `bs` on the line `l` does (R126, R127, R131, R132, R146): the trace and the
waveform grow by exactly those symbols, one draw is used a symbol, and the rest is the frame. -/
structure Sent (l : Line) (bs : List Bool) (s t : State) : Prop where
  frame : EngineFrame s t
  port : PortAfterBits l bs s t
  out : t.out = s.out ++ bitsTrace s.params l bs
  wave : t.wave = s.wave ++ bitsWave s.params s.ie s.drawIx bs
  draws : t.drawIx = s.drawIx + bs.length

/-- The engine can drive its line: the configuration is valid and selects an existing group, and the
register file is in canonical form. -/
structure Ready (l : Line) (s : State) : Prop where
  line : readLine s = .ok l
  portWf : Memory.wf s.port = true

/-- Critical sections pair up and never nest (R128); `inside` is whether one is open. -/
def masksPair : Bool → List Event → Bool
  | inside, [] => !inside
  | inside, .maskEnter :: es => !inside && masksPair true es
  | inside, .maskExit :: es => inside && masksPair false es
  | inside, _ :: es => masksPair inside es

/-- Pulses pair up: after a `PIN_HIGH` a `PIN_LOW` comes before the next `PIN_HIGH` (R83); `high` is
whether a pulse is open. -/
def pulsesPair : Bool → List Event → Bool
  | high, [] => !high
  | high, .pinHigh _ _ :: es => !high && pulsesPair true es
  | high, .pinLow _ _ :: es => high && pulsesPair false es
  | high, _ :: es => pulsesPair high es

/-- The trace holds whole symbols only. -/
def TraceDisciplined (s : State) : Prop :=
  masksPair false s.out = true ∧ pulsesPair false s.out = true

/-- An error report. -/
def isErr : Event → Bool
  | .err _ _ => true
  | _ => false

/-- A pin, wait or mask event: what a transmission puts in the trace. -/
def isEngineEvent : Event → Bool
  | .maskEnter | .maskExit | .pinHigh _ _ | .pinLow _ _ | .wait _ => true
  | .dirOut _ _ | .err _ _ | .regNotify => false

/-- Run instructions one after another, stopping at the first fault or refusal. -/
def execAll : List Instr → State → Host.Outcome State Fault Refusal
  | [], s => .next s
  | i :: is, s =>
    match exec i s with
    | .next t => execAll is t
    | .fault f => .fault f
    | .refused r => .refused r

/-- The pixel a list of quadruples leaves at index `i`: that of the last quadruple that carries `i`,
else the pixel that was there (R168, R169). -/
def lastWrite (qs : List Quad) (i : Nat) (old : Pixel) : Pixel :=
  match qs.reverse.find? (fun q => decide (q.idx.toNat = i)) with
  | some q => quadPixel q
  | none => old

end Sys2Proof.Safety
end

