-- ==== Sys2Proof/Certificates/Slice0/Obligations.lean ====
section
/-! DEFINITION. The statements about the model, one definition each. Every docstring names the rule of
spec/ it formalises. -/

open Sys2Proof Sys2Proof.Machine Sys2Proof.Safety

/-! ### Reset and invariants -/

/-- R211 (with the table of R45): the block comes out of reset unattached, idle, not busy, with no
buffer; nothing was emitted; no pin is an output. -/
def Obligations.ResetLeavesBlockUnattached : Prop :=
  State.reset.attached = false ∧ State.reset.dirty = false ∧ State.reset.lastTx = 0 ∧
  State.reset.cfg = .invalid ∧ State.reset.buf = [] ∧ State.reset.busy = false ∧
  sched State.reset = .idle ∧ State.reset.out = [] ∧
  (∀ g, portReg g State.reset = 0) ∧ (∀ g, dirReg g State.reset = 0)

/-- The invariants hold at reset (R45, R47; R7 holds of every state by type, `Config.Valid`). -/
def Obligations.ResetMeetsInvariants : Prop :=
  BlockInv State.reset ∧ CursorInFrame State.reset ∧ TraceDisciplined State.reset

/-- R47 (i) and (ii), the width of `last_tx` (R29) and the canonical form of the register files are
kept by every step, of any agent, from every state that meets them. -/
def Obligations.StepKeepsBlockInvariant : Prop :=
  ∀ s t, BlockInv s → step s = .next t → BlockInv t

/-- R31: while a frame is in progress the cursor never passes `24 * N`. -/
def Obligations.StepKeepsCursorInsideFrame : Prop :=
  ∀ s t, BlockInv s → CursorInFrame s → step s = .next t → CursorInFrame t

/-- R128 and R83: in the whole trace critical sections pair up and never nest, and every rise of the
line is followed by its fall before the next rise. -/
def Obligations.StepKeepsTraceDiscipline : Prop :=
  ∀ s t, TraceDisciplined s → step s = .next t → TraceDisciplined t

/-- R6 and R20 (d): no step changes a parameter, and the trace is append-only. -/
def Obligations.StepFixesParamsAndAppendsTrace : Prop :=
  ∀ s t, step s = .next t → t.config = s.config ∧ ∃ es, t.out = s.out ++ es

/-! ### Fetching, decoding, encoding -/

/-- R40, R39, R85: a command presented to a block that is not busy is decoded and run, with `TIME` the
presented `now` and the command taken off the queue. -/
def Obligations.PresentedCommandRunsDecoded : Prop :=
  ∀ s c rest i, s.busy = false → s.inputs = .command c :: rest →
    decode s.params.tsWidth c = .ok i →
    step s = exec i { s with inputs := rest, time := c.now % 2 ^ s.params.tsWidth }

/-- R86: a reserved select is refused. -/
def Obligations.ReservedSelectHasNoStep : Prop :=
  ∀ s c rest, s.busy = false → s.inputs = .command c :: rest →
    (c.op = 0#3 ∨ c.op = 6#3 ∨ c.op = 7#3) → step s = .refused (.reservedSelect c.op)

/-- R72, R80: each select code gives its command, with the payload read only where the format has
one, and the reserved codes give none. That a time operand is taken modulo `2^w`, whatever natural is
presented, is the model's (log entry 9, DEDUCED from R71): neither R72 nor R80 says it. -/
def Obligations.SelectCodesNameCommands : Prop :=
  ∀ w p now d,
    decode w ⟨1#3, p, now, d⟩ = .ok (.attach p) ∧
    decode w ⟨2#3, p, now, d⟩ = .ok (.writePatch p) ∧
    decode w ⟨3#3, p, now, d⟩ = .ok (.requestShow (now % 2 ^ w) (d % 2 ^ w)) ∧
    decode w ⟨4#3, p, now, d⟩ = .ok (.update (now % 2 ^ w) (d % 2 ^ w)) ∧
    decode w ⟨5#3, p, now, d⟩ = .ok .detach ∧
    (∀ op, op = 0#3 ∨ op = 6#3 ∨ op = 7#3 →
      decode w ⟨op, p, now, d⟩ = .error (.reservedSelect op))

/-- Decoding the encoded form of a well-formed command gives it back, every operand at every value;
and what the decoder answers is well-formed and encodes to a command with the select it came from
(R72 to R80, R94). -/
def Obligations.DecodeEncodeAgree : Prop :=
  (∀ w i c, WellFormed w i = true → encode i = some c → decode w c = .ok i) ∧
  (∀ w c i, decode w c = .ok i →
    WellFormed w i = true ∧ ∃ e, encode i = some e ∧ e.op = c.op ∧ decode w e = .ok i)

/-- R141: a byte is recovered from its eight symbols. R81, R84, R85: a buffer is recovered from its
frame's symbols, whatever it holds. -/
def Obligations.WireFormatsReadBack : Prop :=
  (∀ v, decodeByteWord (byteBits v) = some (.sendByte v)) ∧
  (∀ buf, decodeFrame (frameBits buf) = some buf)

/-- A few words written out from the encodings of R72, R82 and R81 (sanity). That an opcode-table word
of ATTACH or WRITE_PATCH stands for the command with the shortest payload of zeros is the model's, not
the spec's (log entry 9, DESIGN CHOICE). -/
def Obligations.SampleWordsDecode : Prop :=
  decodeTableWord 8 0x01 = some (.attach [0, 0]) ∧
  decodeTableWord 8 0x02 = some (.writePatch [0, 0, 0]) ∧
  decodeTableWord 8 0x05 = some .detach ∧
  decodeTableWord 8 0x06 = none ∧
  decode 32 ⟨1#3, [5, 3], 0, 0⟩ = .ok (.attach [5, 3]) ∧
  decode 32 ⟨3#3, [1, 2, 3], 100000, 100090⟩ = .ok (.requestShow 100000 100090) ∧
  decodeByteWord [true, false, true, true, false, false, false, false] =
    some (.sendByte 0xB0) ∧
  decodeFrame
    [false, false, false, true, false, true, false, false,
     false, false, false, false, true, false, true, false,
     false, false, false, true, true, true, true, false] = some [⟨10, 20, 30⟩]

/-- R225, R195: between commands another user of the port registers changes only bits that are not the
block's; a write that would change the block's bit has no step. -/
def Obligations.OtherUsersKeepOffOwnPin : Prop :=
  ∀ s c k g v rest, BlockInv s → Live s c k → s.attached = true → s.busy = false →
    g ∈ s.params.portGroups →
    (s.inputs = .writePort g v :: rest →
      if g = c.portSel ∧ (portReg g s ^^^ v) &&& c.pinMask ≠ 0 then
        step s = .refused .ownPinWritten
      else ∃ t, step s = .next t ∧ portReg g t = v ∧
        (∀ h, h ≠ g → portReg h t = portReg h s) ∧ t.dir = s.dir ∧ t.buf = s.buf ∧
        t.cfg = s.cfg ∧ t.out = s.out) ∧
    (s.inputs = .writeDir g v :: rest →
      if g = c.portSel ∧ (dirReg g s ^^^ v) &&& c.pinMask ≠ 0 then
        step s = .refused .ownPinWritten
      else ∃ t, step s = .next t ∧ dirReg g t = v ∧
        (∀ h, h ≠ g → dirReg h t = dirReg h s) ∧ t.port = s.port ∧ t.buf = s.buf ∧
        t.cfg = s.cfg ∧ t.out = s.out)

/-! ### Attachment -/

/-- R100 (success), R104, R105: the whole state a successful ATTACH leaves. The payload has `ATTACH_LEN`
bytes (R73), pin and pixel count in front (R74). Over any `ATTACH_LEN` but REF16's 2 this is the model's
reading (log entry 2, DEDUCED). -/
def Obligations.AttachSucceedsWithBlankBuffer : Prop :=
  ∀ s p pin count g k, BlockInv s → p.length = s.params.attachLen →
    p[0]? = some pin → p[1]? = some count → pinMap s.params pin = some (g, k) →
    ∃ t, exec (.attach p) s = .next t ∧
      t.attached = true ∧ t.dirty = true ∧ t.lastTx = 0 ∧ sched t = .pendingShow ∧
      t.cfg = .valid ⟨pin, count, g, BitVec.ofNat 8 (2 ^ k)⟩ ∧
      t.buf = List.replicate count.toNat ⟨0, 0, 0⟩ ∧
      (∀ h, dirReg h t =
        if h = g then dirReg g s ||| BitVec.ofNat 8 (2 ^ k) else dirReg h s) ∧
      (∀ h, portReg h t = portReg h s) ∧
      t.out = s.out ++ [.dirOut g (BitVec.ofNat 8 (2 ^ k)), .regNotify] ∧
      t.attachResult = .success

/-- R102, R181: a payload whose length is not `ATTACH_LEN` (2 in REF16) fails with exactly one report,
whatever it holds. R102 writes 2; `ATTACH_LEN` (R73) in its place, over every layout, is the model's
reading (log entry 2, DEDUCED). -/
def Obligations.AttachWrongLengthFails : Prop :=
  ∀ s p, BlockInv s → p.length ≠ s.params.attachLen →
    ∃ t kind msg, exec (.attach p) s = .next t ∧
      kind.toNat = s.params.errInvalidConfiguration ∧ t.out = s.out ++ [.err kind msg] ∧
      t.attached = false ∧ t.buf = [] ∧ t.cfg = .invalid ∧ t.attachResult = .failure ∧
      t.port = s.port ∧ t.dir = s.dir

/-- R103, R182: an unresolvable pin fails with exactly one report, whatever the pixel count. R103 speaks of
a 2-byte payload; `ATTACH_LEN` bytes (R73), over every layout, is the model's reading (log entry 2,
DEDUCED). -/
def Obligations.AttachUnresolvablePinFails : Prop :=
  ∀ s p pin count, BlockInv s → p.length = s.params.attachLen →
    p[0]? = some pin → p[1]? = some count → pinMap s.params pin = none →
    ∃ t kind msg, exec (.attach p) s = .next t ∧
      kind.toNat = s.params.errUnsupportedPlatform ∧ t.out = s.out ++ [.err kind msg] ∧
      t.attached = false ∧ t.buf = [] ∧ t.cfg = .invalid ∧ t.attachResult = .failure ∧
      t.port = s.port ∧ t.dir = s.dir

/-- R108: a failed ATTACH leaves every block-owned element at its reset value and writes neither
register file. Which payloads fail is read with `ATTACH_LEN` (R73) for the 2 of R102 and R103 (log
entry 2, DEDUCED). -/
def Obligations.FailedAttachLeavesResetState : Prop :=
  ∀ s p, BlockInv s → s.busy = false →
    (p.length ≠ s.params.attachLen ∨
      ∃ pin count, p[0]? = some pin ∧ p[1]? = some count ∧ pinMap s.params pin = none) →
    ∃ t, exec (.attach p) s = .next t ∧ t.attachResult = .failure ∧
      t.attached = State.reset.attached ∧ t.dirty = State.reset.dirty ∧
      t.lastTx = State.reset.lastTx ∧ t.cfg = State.reset.cfg ∧ t.buf = State.reset.buf ∧
      t.busy = State.reset.busy ∧ sched t = sched State.reset ∧
      t.port = s.port ∧ t.dir = s.dir

/-- R101: ATTACH on an attached block is DETACH and then ATTACH. -/
def Obligations.ReattachIsDetachThenAttach : Prop :=
  ∀ s p, s.attached = true →
    ∃ r, exec .detach s = .next r ∧ r.attached = false ∧ r.buf = [] ∧
      exec (.attach p) s = exec (.attach p) r

/-- R109, R110: what DETACH writes and what it leaves alone. -/
def Obligations.DetachReleasesAndLeavesPins : Prop :=
  ∀ s,
    (s.attached = false → exec .detach s = .next s) ∧
    (s.attached = true →
      ∃ t, exec .detach s = .next t ∧ t.attached = false ∧ t.dirty = false ∧ t.lastTx = 0 ∧
        t.cfg = .invalid ∧ t.buf = [] ∧ sched t = .idle ∧
        t.port = s.port ∧ t.dir = s.dir ∧ t.ie = s.ie ∧ t.out = s.out ∧ t.wave = s.wave ∧
        t.config = s.config ∧ t.time = s.time ∧ t.busy = s.busy ∧ t.cursor = s.cursor ∧
        t.savedIe = s.savedIe ∧ t.dly = s.dly ∧ t.attachResult = s.attachResult ∧
        t.inputs = s.inputs)

/-- R111, R105: ATTACH puts no pin, wait or mask event in the trace, writes no `PORT` register, clears
no bit of `DIR`, and leaves the engine's registers, `IE` and `TIME` alone (frame). A direction bit is
gained only on a payload of `ATTACH_LEN` bytes (R73): that number for the 2 of R102, over every layout, is
the model's reading (log entry 2, DEDUCED). -/
def Obligations.AttachFrame : Prop :=
  ∀ s p t, BlockInv s → exec (.attach p) s = .next t →
    (∃ es, t.out = s.out ++ es ∧ es.all (fun e => !isEngineEvent e) = true) ∧
    t.wave = s.wave ∧ (∀ h, portReg h t = portReg h s) ∧
    (∀ h, dirReg h t = dirReg h s ∨
      ∃ pin k, p.length = s.params.attachLen ∧ p[0]? = some pin ∧
        pinMap s.params pin = some (h, k) ∧
        dirReg h t = dirReg h s ||| BitVec.ofNat 8 (2 ^ k)) ∧
    t.config = s.config ∧ t.ie = s.ie ∧ t.time = s.time ∧ t.busy = s.busy ∧
    t.cursor = s.cursor ∧ t.savedIe = s.savedIe ∧ t.dly = s.dly ∧ t.inputs = s.inputs

/-- R61, R62: the reference pin map. -/
def Obligations.ReferencePinMap : Prop :=
  ∀ pin : Byte, pinMap ref16 pin =
    if pin.toNat ≤ 7 then some (groupD, pin.toNat)
    else if pin.toNat ≤ 13 then some (groupB, pin.toNat - 8)
    else if pin.toNat ≤ 19 then some (groupC, pin.toNat - 14)
    else none

/-! ### The engine -/

/-- R121: `rnd` is the nearest natural, ties upward; and its only use in integer form. -/
def Obligations.RoundingIsNearestTiesUp : Prop :=
  (∀ num den, 0 < den →
    2 * den * rnd num den ≤ 2 * num + den ∧ 2 * num + den < 2 * den * (rnd num den + 1)) ∧
  (∀ ns clk, rnd (ns * clk) 1000000000 = (ns * clk + 500000000) / 1000000000)

/-- R122, R123: the delay constants with the clamp, and the pulse widths. -/
def Obligations.DelayConstantsAndWidths : Prop :=
  ∀ (P : Config.Params) (x : Phase),
    nom P x = (phaseNs P x * P.clockHz + 500000000) / 1000000000 ∧
    (phaseOvh P x ≤ nom P x → delay P x = nom P x - phaseOvh P x) ∧
    (nom P x < phaseOvh P x → delay P x = 0) ∧
    width P x = delay P x + phaseOvh P x ∧ width P x = max (nom P x) (phaseOvh P x)

/-- R136: the constants of REF16 and of four other clocks (delays, then widths, in the order T0H,
T0L, T1H, T1L). -/
def Obligations.DelayTable : Prop :=
  ∀ row ∈ [(16000000, [6, 14, 13, 7], [4, 12, 11, 5], [6, 14, 13, 7]),
           (20000000, [8, 17, 16, 9], [6, 15, 14, 7], [8, 17, 16, 9]),
           (10000000, [4, 9, 8, 5], [2, 7, 6, 3], [4, 9, 8, 5]),
           (8000000, [3, 7, 6, 4], [1, 5, 4, 2], [3, 7, 6, 4]),
           (1000000, [0, 1, 1, 0], [0, 0, 0, 0], [2, 2, 2, 2])],
    [Phase.t0h, .t0l, .t1h, .t1l].map (nom { ref16 with clockHz := row.1 }) = row.2.1 ∧
    [Phase.t0h, .t0l, .t1h, .t1l].map (delay { ref16 with clockHz := row.1 }) = row.2.2.1 ∧
    [Phase.t0h, .t0l, .t1h, .t1l].map (width { ref16 with clockHz := row.1 }) = row.2.2.2

/-- R124, R125: set and clear change exactly the bits of the mask in one register, emit one event
each, and write nothing else. -/
def Obligations.PortBitSetAndClear : Prop :=
  ∀ (l : Line) (s : State), Memory.wf s.port = true →
    (∀ g, portReg g (setHigh l s) =
      if g = l.group then portReg g s ||| l.mask else portReg g s) ∧
    (∀ g, portReg g (setLow l s) =
      if g = l.group then portReg g s &&& ~~~l.mask else portReg g s) ∧
    setHigh l s = { s with port := (setHigh l s).port,
                           out := s.out ++ [.pinHigh l.group l.mask] } ∧
    setLow l s = { s with port := (setLow l s).port,
                          out := s.out ++ [.pinLow l.group l.mask] }

/-- R128: `MASK_ENTER` saves and clears `IE`; `MASK_EXIT` puts the saved value back, whatever ran
between. -/
def Obligations.CriticalSectionRestoresIe : Prop :=
  ∀ s u : State,
    (maskEnter s).ie = false ∧ (maskEnter s).savedIe = s.ie ∧
    (maskEnter s).out = s.out ++ [.maskEnter] ∧
    (maskExit u).out = u.out ++ [.maskExit] ∧
    (u.savedIe = (maskEnter s).savedIe → (maskExit u).ie = s.ie)

/-- R126: SEND_BIT0 on a configured block: its six events, the line's bit 0 and no other bit changed,
`IE` as before, the cursor one further, a high phase of exactly `W_T0H` cycles and a low phase of at
least `W_T0L`; nothing else changes (frame). What `saved_ie` and `dly` hold once the operation is over,
the old `IE` and 0, is the model's (log entry 4, DESIGN CHOICE): by R34 neither survives it. -/
def Obligations.SendBitZeroResult : Prop :=
  ∀ s c, s.cfg = .valid c → c.portSel ∈ s.params.portGroups → Memory.wf s.port = true →
    ∃ t jl, exec .sendBit0 s = .next t ∧ EngineFrame s t ∧ t.busy = s.busy ∧
      t.out = s.out ++
        [.maskEnter, .pinHigh c.portSel c.pinMask, .wait (delay s.params .t0h),
         .pinLow c.portSel c.pinMask, .wait (delay s.params .t0l), .maskExit] ∧
      (∀ g, portReg g t =
        if g = c.portSel then portReg g s &&& ~~~c.pinMask else portReg g s) ∧
      t.cursor = s.cursor.next ∧ t.savedIe = s.ie ∧ t.dly = 0 ∧
      t.wave = s.wave ++ [⟨true, width s.params .t0h⟩, ⟨false, width s.params .t0l + jl⟩]

/-- R127: SEND_BIT1: its four events, a high phase of at least `W_T1H` (exactly `W_T1H` when
`IE = 0`, R133), a low phase of at least `W_T1L`; frame as for SEND_BIT0. What `saved_ie` and `dly`
hold once the operation is over is the model's (log entry 4, DESIGN CHOICE). -/
def Obligations.SendBitOneResult : Prop :=
  ∀ s c, s.cfg = .valid c → c.portSel ∈ s.params.portGroups → Memory.wf s.port = true →
    ∃ t jh jl, exec .sendBit1 s = .next t ∧ EngineFrame s t ∧ t.busy = s.busy ∧
      t.savedIe = s.savedIe ∧ t.dly = 0 ∧
      t.out = s.out ++
        [.pinHigh c.portSel c.pinMask, .wait (delay s.params .t1h),
         .pinLow c.portSel c.pinMask, .wait (delay s.params .t1l)] ∧
      (∀ g, portReg g t =
        if g = c.portSel then portReg g s &&& ~~~c.pinMask else portReg g s) ∧
      t.cursor = s.cursor.next ∧ (s.ie = false → jh = 0) ∧
      t.wave = s.wave ++
        [⟨true, width s.params .t1h + jh⟩, ⟨false, width s.params .t1l + jl⟩]

/-- R26, R45, R52, R7: where the model stops, and that ATTACH never does. With `cfg` invalid nothing
reads it; a port group outside `PORT_GROUPS` has no register. A pin resolves to an existing group only
(R7), so ATTACH completes from every state on every payload. -/
def Obligations.AccessesOutsideTheMachineStop : Prop :=
  (∀ s v, s.cfg = .invalid →
    exec .sendBit0 s = .fault .noConfiguration ∧ exec .sendBit1 s = .fault .noConfiguration ∧
    exec (.sendByte v) s = .fault .noConfiguration ∧ exec .sendFrame s = .fault .noConfiguration) ∧
  (∀ s c v, s.cfg = .valid c → c.portSel ∉ s.params.portGroups →
    exec .sendBit0 s = .fault .noSuchPortGroup ∧ exec .sendBit1 s = .fault .noSuchPortGroup ∧
    exec (.sendByte v) s = .fault .noSuchPortGroup) ∧
  (∀ (s : State) pin g k, pinMap s.params pin = some (g, k) → g ∈ s.params.portGroups) ∧
  (∀ s p, ∃ t, exec (.attach p) s = .next t) ∧
  (∀ s g v rest, s.busy = false → g ∉ s.params.portGroups →
    (s.inputs = .writePort g v :: rest → step s = .fault .noSuchPortGroup) ∧
    (s.inputs = .writeDir g v :: rest → step s = .fault .noSuchPortGroup))

/-- R131: scanning the trace of any sequence of bit operations recovers exactly that sequence. -/
def Obligations.BitStreamRecoversBits : Prop :=
  ∀ P l bs, bits (bitsTrace P l bs) = bs

/-! ### The serializer -/

/-- R140, R141: SEND_BYTE sends bits 7 down to 0, and the bit stream of its trace is that list. -/
def Obligations.SendByteResult : Prop :=
  ∀ s c v, s.cfg = .valid c → c.portSel ∈ s.params.portGroups → Memory.wf s.port = true →
    ∃ t tr, exec (.sendByte v) s = .next t ∧
      Sent ⟨c.portSel, c.pinMask⟩
        [v.getLsbD 7, v.getLsbD 6, v.getLsbD 5, v.getLsbD 4,
         v.getLsbD 3, v.getLsbD 2, v.getLsbD 1, v.getLsbD 0] s t ∧
      t.busy = s.busy ∧ t.out = s.out ++ tr ∧
      bits tr = [v.getLsbD 7, v.getLsbD 6, v.getLsbD 5, v.getLsbD 4,
                 v.getLsbD 3, v.getLsbD 2, v.getLsbD 1, v.getLsbD 0]

/-- R142, R143: SEND_PIXEL sends green, red, blue; outside the buffer there is no such pixel (R51). -/
def Obligations.SendPixelResult : Prop :=
  ∀ s c (i : Byte),
    (∀ px, s.cfg = .valid c → c.portSel ∈ s.params.portGroups → Memory.wf s.port = true →
      s.buf[i.toNat]? = some px →
      ∃ t tr, exec (.sendPixel i) s = .next t ∧
        Sent ⟨c.portSel, c.pinMask⟩ (byteBits px.g ++ byteBits px.r ++ byteBits px.b) s t ∧
        t.busy = s.busy ∧ t.out = s.out ++ tr ∧
        bits tr = byteBits px.g ++ byteBits px.r ++ byteBits px.b) ∧
    (s.buf.length ≤ i.toNat → exec (.sendPixel i) s = .fault .noSuchPixel)

/-- R144, R145: SEND_FRAME on a live block sends the whole buffer in index order, `busy` is 0 after,
`dirty` and `last_tx` are not written. -/
def Obligations.SendFrameResult : Prop :=
  ∀ s c k, BlockInv s → Live s c k →
    ∃ t tr, exec .sendFrame s = .next t ∧
      Sent ⟨c.portSel, c.pinMask⟩ (frameBits s.buf) s t ∧
      t.busy = false ∧ t.dirty = s.dirty ∧ t.lastTx = s.lastTx ∧
      t.out = s.out ++ tr ∧ bits tr = s.buf.flatMap pixelBits ∧
      (bits tr).length = 24 * c.pixelCount.toNat

/-- R145: bit `k` of a frame is bit `7 - (k mod 8)` of channel `(k div 8) mod 3` of pixel
`k div 24`. -/
def Obligations.FrameBitPosition : Prop :=
  ∀ buf, (frameBits buf).length = 24 * buf.length ∧
    ∀ k px, buf[k / 24]? = some px →
      (frameBits buf)[k]? =
        some ((if k / 8 % 3 = 0 then px.g else if k / 8 % 3 = 1 then px.r
          else px.b).getLsbD (7 - k % 8))

/-- R149: the counts of a frame's events and its nominal duration. -/
def Obligations.FrameEventCounts : Prop :=
  ∀ s c k, BlockInv s → Live s c k →
    ∃ t tr, exec .sendFrame s = .next t ∧ t.out = s.out ++ tr ∧
      (let z := (frameBits s.buf).count false
       let o := (frameBits s.buf).count true
       z + o = 24 * c.pixelCount.toNat ∧
       tr.count (.pinHigh c.portSel c.pinMask) = 24 * c.pixelCount.toNat ∧
       tr.count (.pinLow c.portSel c.pinMask) = 24 * c.pixelCount.toNat ∧
       tr.countP (fun e => match e with | .wait _ => true | _ => false) =
         48 * c.pixelCount.toNat ∧
       tr.count .maskEnter = z ∧ tr.count .maskExit = z ∧
       tr.length = 4 * o + 6 * z ∧
       nominalCycles s.params (frameBits s.buf) =
         o * (width s.params .t1h + width s.params .t1l) +
         z * (width s.params .t0h + width s.params .t0l))

/-- R132, R133, R154: the waveform of a frame: two segments a symbol, high then low, the nominal
widths plus draws that are 0 for the high phase of a 0-bit and of every bit sent with `IE = 0`; so a
frame lasts at least its nominal duration. -/
def Obligations.FrameWaveform : Prop :=
  ∀ s c k, BlockInv s → Live s c k →
    ∃ t w, exec .sendFrame s = .next t ∧ t.wave = s.wave ++ w ∧
      w.length = 2 * (24 * c.pixelCount.toNat) ∧
      nominalCycles s.params (frameBits s.buf) ≤ waveCycles w ∧
      ∀ j b, (frameBits s.buf)[j]? = some b →
        ∃ jh jl,
          w[2 * j]? = some ⟨true, width s.params (if b then .t1h else .t0h) + jh⟩ ∧
          w[2 * j + 1]? = some ⟨false, width s.params (if b then .t1l else .t0l) + jl⟩ ∧
          (b = false → jh = 0) ∧ (s.ie = false → jh = 0)

/-- R47 (iii), R41: after a frame of at least one pixel the block's line is low. -/
def Obligations.LineIsLowAfterFrame : Prop :=
  ∀ s c k, BlockInv s → Live s c k → s.buf ≠ [] →
    ∃ t, exec .sendFrame s = .next t ∧ lineLevel ⟨c.portSel, c.pinMask⟩ t = some false

/-- R30, R31, R145: a block in mid-frame sends the frame's bit at the cursor, and at the end of the frame
`busy` falls. That a busy state is continued one bit a step, and that its end is a step of its own that
only clears `busy`, is the model's (log entry 13, DESIGN CHOICE). -/
def Obligations.SequencerSendsBitAtCursor : Prop :=
  ∀ s c k, Live s c k → s.busy = true →
    (∀ b, (frameBits s.buf)[s.cursor.linear]? = some b →
      step s = exec (if b then .sendBit1 else .sendBit0) s) ∧
    (s.cursor.linear = 24 * c.pixelCount.toNat → step s = .next { s with busy := false })

/-- R31, R144, R145: stepping a frame bit by bit, `24 * N` bits and the end, is SEND_FRAME. The stepping
itself, one bit a step and one more step for the end, is the model's (log entry 13, DESIGN CHOICE). -/
def Obligations.SteppedFrameIsSendFrame : Prop :=
  ∀ s c k, BlockInv s → Live s c k → s.busy = true → s.cursor = Cursor.start →
    ∃ t, exec .sendFrame s = .next t ∧
      Sys2Proof.core.run (24 * c.pixelCount.toNat + 1) s = .next t

/-- R85, R133, R226: a receiver that tells the bits apart by the width of the high phase, at any
threshold above `W_T0H` and up to `W_T1H`, reads the buffer back from the waveform of a shown frame,
whatever the interrupts did (the latch on a long low, R219 (b), is outside this receiver). -/
def Obligations.ReceiverReadsBufferBack : Prop :=
  ∀ s c k now tDone thr, BlockInv s → Live s c k → s.attached = true →
    s.params.resetIntervalUs ≤ elapsed s.params.tsWidth now s.lastTx →
    width s.params .t0h < thr → thr ≤ width s.params .t1h →
    ∃ t w, exec (.requestShow now tDone) s = .next t ∧ t.wave = s.wave ++ w ∧
      decodeFrame (receive thr w) = some s.buf

/-! ### The scheduler -/

/-- R151, R222: elapsed time is a natural below `2^TS_WIDTH`; it is the true elapsed time `d` whenever
that is below `2^TS_WIDTH`, whether or not `TIME` wrapped between, and aliases beyond. -/
def Obligations.ElapsedIsTrueTimeAcrossWrap : Prop :=
  ∀ w : Nat, (∀ now since, elapsed w now since < 2 ^ w) ∧
    (∀ start d, elapsed w ((start + d) % 2 ^ w) (start % 2 ^ w) = d % 2 ^ w) ∧
    (∀ start d, d < 2 ^ w → elapsed w ((start + d) % 2 ^ w) (start % 2 ^ w) = d)

/-- R153, R154, R159: a show whose reset gap has passed sends the whole buffer, whatever `dirty` is,
then sets the timestamp and clears `dirty`; nothing else changes but what the frame changes. -/
def Obligations.RequestShowTransmitsFrame : Prop :=
  ∀ s c k now tDone, BlockInv s → Live s c k → s.attached = true →
    s.params.resetIntervalUs ≤ elapsed s.params.tsWidth now s.lastTx →
    ∃ t u, exec .sendFrame s = .next u ∧ exec (.requestShow now tDone) s = .next t ∧
      t = { u with lastTx := tDone, dirty := false } ∧
      t.out = s.out ++ bitsTrace s.params ⟨c.portSel, c.pinMask⟩ (frameBits s.buf) ∧
      t.lastTx = tDone ∧ t.dirty = false ∧ t.busy = false ∧ sched t = .idle ∧
      t.buf = s.buf ∧ t.cfg = s.cfg ∧ t.attached = s.attached ∧ t.dir = s.dir ∧ t.ie = s.ie ∧
      t.config = s.config ∧ t.time = s.time ∧ t.inputs = s.inputs ∧
      t.attachResult = s.attachResult

/-- R155: a show inside the reset interval changes nothing. -/
def Obligations.DroppedShowChangesNothing : Prop :=
  ∀ s now tDone, elapsed s.params.tsWidth now s.lastTx < s.params.resetIntervalUs →
    exec (.requestShow now tDone) s = .next s

/-- R160, R172, R109: on an unattached block every command but ATTACH does nothing. -/
def Obligations.UnattachedCommandsIgnored : Prop :=
  ∀ s now tDone p, s.attached = false →
    exec (.requestShow now tDone) s = .next s ∧ exec (.update now tDone) s = .next s ∧
    exec (.writePatch p) s = .next s ∧ exec .detach s = .next s

/-- R156, R157: UPDATE does nothing on an unattached block, nothing on a clean block whatever the time,
nothing inside the refresh interval, and otherwise is the show with the same `now` and its own
gate. -/
def Obligations.UpdateGatesThenShows : Prop :=
  ∀ s now tDone,
    (s.attached = false → exec (.update now tDone) s = .next s) ∧
    (s.dirty = false → exec (.update now tDone) s = .next s) ∧
    (elapsed s.params.tsWidth now s.lastTx < s.params.refreshIntervalUs →
      exec (.update now tDone) s = .next s) ∧
    (s.attached = true → s.dirty = true →
      s.params.refreshIntervalUs ≤ elapsed s.params.tsWidth now s.lastTx →
      exec (.update now tDone) s = exec (.requestShow now tDone) s)

/-- R156: a dirty block whose two gates have passed transmits its buffer at the tick. -/
def Obligations.UpdateTransmitsDirtyBuffer : Prop :=
  ∀ s c k now tDone, BlockInv s → Live s c k → s.attached = true → s.dirty = true →
    s.params.refreshIntervalUs ≤ elapsed s.params.tsWidth now s.lastTx →
    s.params.resetIntervalUs ≤ elapsed s.params.tsWidth now s.lastTx →
    ∃ t, exec (.update now tDone) s = .next t ∧
      t.out = s.out ++ bitsTrace s.params ⟨c.portSel, c.pinMask⟩ (frameBits s.buf) ∧
      t.lastTx = tDone ∧ t.dirty = false ∧ t.buf = s.buf ∧ t.cfg = s.cfg ∧
      t.attached = s.attached ∧ t.dir = s.dir ∧ t.ie = s.ie ∧
      PortAfterBits ⟨c.portSel, c.pinMask⟩ (frameBits s.buf) s t

/-- R161: the first frame after a successful ATTACH is gated against time 0: a show transmits exactly
when `now` has reached the reset interval, and an update does as that show when `now` has reached the
refresh interval, else nothing. The payload has `ATTACH_LEN` bytes (R73); over any but REF16's 2 this is
the model's reading (log entry 2, DEDUCED). -/
def Obligations.FirstShowGatedAgainstTimeZero : Prop :=
  ∀ s p pin count g k now tDone, BlockInv s → p.length = s.params.attachLen →
    p[0]? = some pin → p[1]? = some count → pinMap s.params pin = some (g, k) →
    now < 2 ^ s.params.tsWidth →
    ∃ t u v, exec (.attach p) s = .next t ∧
      exec (.requestShow now tDone) t = .next u ∧ exec (.update now tDone) t = .next v ∧
      (now < s.params.refreshIntervalUs → v = t) ∧ (s.params.refreshIntervalUs ≤ now → v = u) ∧
      (now < s.params.resetIntervalUs → u = t) ∧
      (s.params.resetIntervalUs ≤ now → u.dirty = false ∧ u.lastTx = tDone ∧
        u.out = t.out ++ bitsTrace s.params ⟨g, BitVec.ofNat 8 (2 ^ k)⟩
          (List.replicate (24 * count.toNat) false))

/-- R158: any number of patches between two transmissions emit no pin event, and the next eligible
show sends the buffer as the last of them left it. -/
def Obligations.PatchesCoalesceIntoOneFrame : Prop :=
  ∀ s c k (ps : List (List Byte)) now tDone, BlockInv s → Live s c k → s.attached = true →
    s.params.resetIntervalUs ≤ elapsed s.params.tsWidth now s.lastTx →
    ∃ t u es, execAll (ps.map Instr.writePatch) s = .next t ∧
      t.out = s.out ++ es ∧ es.all (fun e => !isEngineEvent e) = true ∧
      exec (.requestShow now tDone) t = .next u ∧
      u.out = t.out ++ bitsTrace s.params ⟨c.portSel, c.pinMask⟩ (frameBits t.buf)

/-- R163: the transition table of the scheduler view. R163 says `len(p) >= 3` of a patch; that this is a
payload that reaches past `PATCH_LEN_OFFSET` (R75, R6) in any layout is the model's reading (log entry 2,
DEDUCED). -/
def Obligations.SchedulerTransitionTable : Prop :=
  ∀ s, BlockInv s →
    (∀ p t, exec (.attach p) s = .next t →
      (t.attachResult = .success ∧ sched t = .pendingShow) ∨
      (t.attachResult = .failure ∧ sched t = .idle)) ∧
    (∀ t, exec .detach s = .next t → sched t = .idle) ∧
    (∀ p t, exec (.writePatch p) s = .next t →
      sched t = if s.attached = true ∧ s.params.patchLenOffset < p.length then .pendingShow
        else sched s) ∧
    (∀ now d t, exec (.requestShow now d) s = .next t →
      sched t = if s.attached = true ∧ resetGapOk now s = true then .idle else sched s) ∧
    (∀ now d t, exec (.update now d) s = .next t →
      sched t = if s.attached = true ∧ s.dirty = true ∧ refreshOk now s = true ∧
        resetGapOk now s = true then .idle else sched s)

/-! ### The buffer command -/

/-- R79, R75, R6: how many quadruples a patch payload holds and which bytes they are: with the offsets
2 and 3 and the size 4 of REF16, `min(L, len - 3) / 4` of them, the `q`-th from byte `3 + 4 * q` on.
Over any other layout it is the model's reading (log entry 2): R79 with the parameters for its numbers
is DEDUCED; that a quadruple is the four bytes from its group's start when `QUAD_SIZE` exceeds 4, and
that there is none when `PATCH_DATA_OFFSET` is past the payload, is DESIGN CHOICE. -/
def Obligations.QuadrupleLayout : Prop :=
  ∀ (P : Config.Params) (p : List Byte), P.patchLenOffset < p.length → 4 ≤ P.quadSize →
    ∃ len, p[P.patchLenOffset]? = some len ∧
      (quads P p).length = min len.toNat (p.length - P.patchDataOffset) / P.quadSize ∧
      ∀ q, q < min len.toNat (p.length - P.patchDataOffset) / P.quadSize →
        ∃ i r g b, p[P.patchDataOffset + P.quadSize * q]? = some i ∧
          p[P.patchDataOffset + P.quadSize * q + 1]? = some r ∧
          p[P.patchDataOffset + P.quadSize * q + 2]? = some g ∧
          p[P.patchDataOffset + P.quadSize * q + 3]? = some b ∧
          (quads P p)[q]? = some ⟨i, r, g, b⟩

/-- R175, R77: the quadruples of one command fit in 255 bytes, so there are at most 63 of four bytes. Over
any layout but REF16's this is the model's reading (log entry 2): R77 and R79 with the parameters for
their numbers is DEDUCED, a `QUAD_SIZE` other than 4 is DESIGN CHOICE. -/
def Obligations.PatchCapacity : Prop :=
  ∀ (P : Config.Params) (p : List Byte), (quads P p).length * P.quadSize ≤ 255 ∧
    (P.quadSize = 4 → (quads P p).length ≤ 63)

/-- R76: the bytes of a patch payload before the length byte and the quadruples, bytes 0 and 1 in REF16,
change nothing. R76 speaks of bytes 0 and 1 only; that it holds of every byte in front of both offsets in
any layout is the model's reading (log entry 2, DEDUCED). -/
def Obligations.PatchHeaderNotRead : Prop :=
  ∀ s (h k rest : List Byte), h.length = k.length → h.length ≤ s.params.patchLenOffset →
    h.length ≤ s.params.patchDataOffset →
    exec (.writePatch (h ++ rest)) s = exec (.writePatch (k ++ rest)) s

/-- R168, R169, R170, R173: each pixel ends as the last quadruple that addresses it says, or as it was;
`dirty` is set; one report is made if any quadruple is out of range, none otherwise; everything else
is unchanged (frame). Over any layout but REF16's, which payloads count (past `PATCH_LEN_OFFSET` for
`len(p) >= 3`) and which bytes are quadruples is the model's reading (log entry 2): R79, R165 and R172
with the parameters of R75 for their numbers is DEDUCED, the edges are DESIGN CHOICE. -/
def Obligations.WritePatchResult : Prop :=
  ∀ s c k p, BlockInv s → Live s c k → s.attached = true →
    s.params.patchLenOffset < p.length →
    ∃ t kind msg, exec (.writePatch p) s = .next t ∧
      kind.toNat = s.params.errOutOfRangeIndex ∧
      t.buf.length = s.buf.length ∧
      (∀ i px, s.buf[i]? = some px → t.buf[i]? = some (lastWrite (quads s.params p) i px)) ∧
      t.dirty = true ∧
      t.out = (if ∃ q ∈ quads s.params p, c.pixelCount.toNat ≤ q.idx.toNat
        then s.out ++ [.err kind msg] else s.out) ∧
      t.attached = s.attached ∧ t.lastTx = s.lastTx ∧ t.cfg = s.cfg ∧ t.port = s.port ∧
      t.dir = s.dir ∧ t.ie = s.ie ∧ t.wave = s.wave ∧ t.config = s.config ∧
      t.time = s.time ∧ t.busy = s.busy ∧ t.cursor = s.cursor ∧ t.savedIe = s.savedIe ∧
      t.dly = s.dly ∧ t.inputs = s.inputs ∧ t.attachResult = s.attachResult

/-- R172: a patch on an unattached block, or one without a length byte (fewer than 3 bytes in REF16), is
ignored entirely. That 'fewer than 3 bytes' is a payload ending at or before `PATCH_LEN_OFFSET` (R75) in
any layout is the model's reading (log entry 2, DEDUCED). -/
def Obligations.PatchIgnoredWhenShortOrUnattached : Prop :=
  ∀ s p, s.attached = false ∨ p.length ≤ s.params.patchLenOffset →
    exec (.writePatch p) s = .next s

/-- R174, R92: REPLACE on a live block gives the buffer exactly the listed pixels, sets `dirty`, and
emits nothing, however many commands it takes, under the payload layout of the line syntax (R91). How the
pixels are shared out over the commands is the model's (log entry 18, DESIGN CHOICE). -/
def Obligations.ReplaceSetsWholeBuffer : Prop :=
  ∀ s c k pxs, BlockInv s → Live s c k → s.attached = true → s.params.lineLayout = true →
    pxs.length = c.pixelCount.toNat →
    ∃ t, execAll (replaceAll pxs) s = .next t ∧ t.buf = pxs ∧ t.dirty = true ∧
      t.out = s.out ∧ t.cfg = s.cfg ∧ t.port = s.port ∧ t.dir = s.dir

/-! ### Rules about every operation -/

/-- R193, R195: only ATTACH and WRITE_PATCH add an error report, and no operation adds two. -/
def Obligations.OnlyAttachAndPatchRaise : Prop :=
  ∀ i s t, exec i s = .next t →
    (t.out.filter isErr).length ≤ (s.out.filter isErr).length + 1 ∧
    ((∀ p, i ≠ .attach p) → (∀ p, i ≠ .writePatch p) →
      t.out.filter isErr = s.out.filter isErr)

/-- R47 (iv), R38: `IE` after any operation equals `IE` before it; nor does any operation change
`TIME` (R39), a parameter (R6) or the queue. -/
def Obligations.OperationsLeaveIeAndTime : Prop :=
  ∀ i s t, exec i s = .next t →
    t.ie = s.ie ∧ t.time = s.time ∧ t.config = s.config ∧ t.inputs = s.inputs

/-- R24: the transmission path never writes a pixel. -/
def Obligations.TransmissionNeverWritesBuffer : Prop :=
  ∀ i s t, i = .sendFrame ∨ (∃ k, i = .sendPixel k) ∨ (∃ v, i = .sendByte v) ∨
      i = .sendBit0 ∨ i = .sendBit1 →
    exec i s = .next t → t.buf = s.buf

/-- R26, R37: no operation but ATTACH and DETACH changes the Device Configuration, no operation but
ATTACH writes `DIR`, and none ever clears a bit of it. -/
def Obligations.ConfigurationAndDirectionFixed : Prop :=
  ∀ i s t, exec i s = .next t →
    ((∀ p, i ≠ .attach p) → i ≠ .detach → t.cfg = s.cfg) ∧
    ((∀ p, i ≠ .attach p) → t.dir = s.dir) ∧
    (Memory.wf s.dir = true → ∀ g, dirReg g t &&& dirReg g s = dirReg g s)

/-- R36, R225, R202: no operation changes a bit of any `PORT` register but the one bit of the
configured pin. -/
def Obligations.OtherPortBitsUntouched : Prop :=
  ∀ i s t, Memory.wf s.port = true → exec i s = .next t →
    ∀ g, portReg g t = portReg g s ∨
      ∃ c, s.cfg = .valid c ∧ g = c.portSel ∧
        portReg g t &&& ~~~c.pinMask = portReg g s &&& ~~~c.pinMask
end

