-- ==== Sys2Proof/Laws/Memory.lean ====
section
/-! SUPPORT. The laws of the register files: read after write, and the canonical form is kept. -/

namespace Sys2Proof.Machine

theorem Memory.wf_cons {x : Nat} {v : Byte} {m : List Host.Cell} :
    Memory.wf ((x, v) :: m) = true ↔
      v ≠ Memory.unlisted ∧ (∀ c ∈ m, x < c.1) ∧ Memory.wf m = true := by
  simp [Memory.wf, and_assoc]

/-- A key below every listed one reads as unlisted. -/
theorem Memory.read_below {m : List Host.Cell} {a : Nat} (h : ∀ c ∈ m, a < c.1) :
    Memory.read m a = Memory.unlisted := by
  induction m with
  | nil => rfl
  | cons c m ih =>
    obtain ⟨x, v⟩ := c
    have hx : a < x := h (x, v) (by simp)
    rw [Memory.read, if_neg (by omega)]
    exact ih fun c hc => h c (by simp [hc])

/-- The keys of a written file: those there were, and the one written. -/
theorem Memory.mem_write {m : List Host.Cell} {a : Nat} {v : Byte} {c : Host.Cell}
    (h : c ∈ Memory.write m a v) : c ∈ m ∨ c = (a, v) := by
  induction m with
  | nil =>
    unfold Memory.write at h
    split at h <;> simp_all
  | cons d m ih =>
    obtain ⟨x, w⟩ := d
    unfold Memory.write at h
    split at h
    · split at h
      · exact .inl h
      · rcases List.mem_cons.mp h with h | h
        · exact .inr h
        · exact .inl h
    · split at h
      · split at h
        · exact .inl (by simp [h])
        · rcases List.mem_cons.mp h with h | h
          · exact .inr h
          · exact .inl (by simp [h])
      · rcases List.mem_cons.mp h with h | h
        · exact .inl (by simp [h])
        · rcases ih h with h | h
          · exact .inl (by simp [h])
          · exact .inr h

/-- A write keeps the canonical form. -/
theorem Memory.write_wf {m : List Host.Cell} (a : Nat) (v : Byte) (h : Memory.wf m = true) :
    Memory.wf (Memory.write m a v) = true := by
  induction m with
  | nil =>
    unfold Memory.write
    split
    · rfl
    · rename_i hv; simp [Memory.wf, hv]
  | cons d m ih =>
    obtain ⟨x, w⟩ := d
    obtain ⟨hw, hall, hm⟩ := Memory.wf_cons.mp h
    unfold Memory.write
    split
    · rename_i hax
      split
      · exact h
      · rename_i hv
        refine Memory.wf_cons.mpr ⟨hv, ?_, h⟩
        intro c hc
        rcases List.mem_cons.mp hc with rfl | hc
        · exact hax
        · exact lt_trans hax (hall c hc)
    · split
      · split
        · exact hm
        · rename_i _ hax hv
          exact Memory.wf_cons.mpr ⟨hv, hax ▸ hall, hm⟩
      · rename_i h1 h2
        refine Memory.wf_cons.mpr ⟨hw, ?_, ih hm⟩
        intro c hc
        rcases Memory.mem_write hc with hc | rfl
        · exact hall c hc
        · show x < a
          omega

/-- A read after a write: the value written at that key, the old value at any other. -/
theorem Memory.read_write {m : List Host.Cell} (a : Nat) (v : Byte) (h : Memory.wf m = true)
    (b : Nat) : Memory.read (Memory.write m a v) b = if b = a then v else Memory.read m b := by
  induction m with
  | nil =>
    unfold Memory.write
    split
    · rename_i hv
      split <;> simp_all [Memory.read]
    · simp [Memory.read, eq_comm]
  | cons d m ih =>
    obtain ⟨x, w⟩ := d
    obtain ⟨_, hall, hm⟩ := Memory.wf_cons.mp h
    unfold Memory.write
    split
    · rename_i hax
      split
      · rename_i hv
        split
        · rename_i hb
          subst hb
          rw [Memory.read_below (m := (x, w) :: m) ?_, hv]
          intro c hc
          rcases List.mem_cons.mp hc with rfl | hc
          · exact hax
          · exact lt_trans hax (hall c hc)
        · rfl
      · rw [Memory.read]; simp [eq_comm]
    · split
      · rename_i _ hax
        subst hax
        split
        · rename_i hv
          by_cases hb : b = a
          · subst hb; rw [if_pos rfl, Memory.read_below hall, hv]
          · rw [if_neg hb, Memory.read, if_neg (fun e => hb e.symm)]
        · by_cases hb : b = a
          · subst hb; simp [Memory.read]
          · have hb' : ¬ a = b := fun e => hb e.symm
            simp [Memory.read, hb, hb']
      · rename_i h1 h2
        rw [Memory.read, Memory.read, ih hm]
        by_cases hx : x = b
        · rw [if_pos hx, if_pos hx, if_neg (by omega)]
        · rw [if_neg hx, if_neg hx]

theorem Memory.read_write_same {m : List Host.Cell} (a : Nat) (v : Byte)
    (h : Memory.wf m = true) : Memory.read (Memory.write m a v) a = v := by
  rw [Memory.read_write a v h, if_pos rfl]

theorem Memory.read_write_other {m : List Host.Cell} {a b : Nat} (v : Byte)
    (h : Memory.wf m = true) (hb : b ≠ a) :
    Memory.read (Memory.write m a v) b = Memory.read m b := by
  rw [Memory.read_write a v h, if_neg hb]

end Sys2Proof.Machine
end

