-- ==== Sys2Proof/Laws/State.lean ====
section
/-! SUPPORT. One lemma per field per state update, each by `rfl`, so that no proof unfolds a record
update. -/

namespace Sys2Proof.Machine

@[simp] theorem writePortReg_config (g : PortGroup) (v : Byte) (s : State) :
    (writePortReg g v s).config = s.config := rfl
@[simp] theorem writePortReg_params (g : PortGroup) (v : Byte) (s : State) :
    (writePortReg g v s).params = s.params := rfl
@[simp] theorem writePortReg_attached (g : PortGroup) (v : Byte) (s : State) :
    (writePortReg g v s).attached = s.attached := rfl
@[simp] theorem writePortReg_dirty (g : PortGroup) (v : Byte) (s : State) :
    (writePortReg g v s).dirty = s.dirty := rfl
@[simp] theorem writePortReg_lastTx (g : PortGroup) (v : Byte) (s : State) :
    (writePortReg g v s).lastTx = s.lastTx := rfl
@[simp] theorem writePortReg_cfg (g : PortGroup) (v : Byte) (s : State) :
    (writePortReg g v s).cfg = s.cfg := rfl
@[simp] theorem writePortReg_buf (g : PortGroup) (v : Byte) (s : State) :
    (writePortReg g v s).buf = s.buf := rfl
@[simp] theorem writePortReg_busy (g : PortGroup) (v : Byte) (s : State) :
    (writePortReg g v s).busy = s.busy := rfl
@[simp] theorem writePortReg_cursor (g : PortGroup) (v : Byte) (s : State) :
    (writePortReg g v s).cursor = s.cursor := rfl
@[simp] theorem writePortReg_savedIe (g : PortGroup) (v : Byte) (s : State) :
    (writePortReg g v s).savedIe = s.savedIe := rfl
@[simp] theorem writePortReg_dly (g : PortGroup) (v : Byte) (s : State) :
    (writePortReg g v s).dly = s.dly := rfl
@[simp] theorem writePortReg_port (g : PortGroup) (v : Byte) (s : State) :
    (writePortReg g v s).port = Memory.write s.port g v := rfl
@[simp] theorem writePortReg_dir (g : PortGroup) (v : Byte) (s : State) :
    (writePortReg g v s).dir = s.dir := rfl
@[simp] theorem writePortReg_ie (g : PortGroup) (v : Byte) (s : State) :
    (writePortReg g v s).ie = s.ie := rfl
@[simp] theorem writePortReg_time (g : PortGroup) (v : Byte) (s : State) :
    (writePortReg g v s).time = s.time := rfl
@[simp] theorem writePortReg_out (g : PortGroup) (v : Byte) (s : State) :
    (writePortReg g v s).out = s.out := rfl
@[simp] theorem writePortReg_wave (g : PortGroup) (v : Byte) (s : State) :
    (writePortReg g v s).wave = s.wave := rfl
@[simp] theorem writePortReg_attachResult (g : PortGroup) (v : Byte) (s : State) :
    (writePortReg g v s).attachResult = s.attachResult := rfl
@[simp] theorem writePortReg_inputs (g : PortGroup) (v : Byte) (s : State) :
    (writePortReg g v s).inputs = s.inputs := rfl
@[simp] theorem writePortReg_drawIx (g : PortGroup) (v : Byte) (s : State) :
    (writePortReg g v s).drawIx = s.drawIx := rfl

@[simp] theorem writeDirReg_config (g : PortGroup) (v : Byte) (s : State) :
    (writeDirReg g v s).config = s.config := rfl
@[simp] theorem writeDirReg_params (g : PortGroup) (v : Byte) (s : State) :
    (writeDirReg g v s).params = s.params := rfl
@[simp] theorem writeDirReg_attached (g : PortGroup) (v : Byte) (s : State) :
    (writeDirReg g v s).attached = s.attached := rfl
@[simp] theorem writeDirReg_dirty (g : PortGroup) (v : Byte) (s : State) :
    (writeDirReg g v s).dirty = s.dirty := rfl
@[simp] theorem writeDirReg_lastTx (g : PortGroup) (v : Byte) (s : State) :
    (writeDirReg g v s).lastTx = s.lastTx := rfl
@[simp] theorem writeDirReg_cfg (g : PortGroup) (v : Byte) (s : State) :
    (writeDirReg g v s).cfg = s.cfg := rfl
@[simp] theorem writeDirReg_buf (g : PortGroup) (v : Byte) (s : State) :
    (writeDirReg g v s).buf = s.buf := rfl
@[simp] theorem writeDirReg_busy (g : PortGroup) (v : Byte) (s : State) :
    (writeDirReg g v s).busy = s.busy := rfl
@[simp] theorem writeDirReg_cursor (g : PortGroup) (v : Byte) (s : State) :
    (writeDirReg g v s).cursor = s.cursor := rfl
@[simp] theorem writeDirReg_savedIe (g : PortGroup) (v : Byte) (s : State) :
    (writeDirReg g v s).savedIe = s.savedIe := rfl
@[simp] theorem writeDirReg_dly (g : PortGroup) (v : Byte) (s : State) :
    (writeDirReg g v s).dly = s.dly := rfl
@[simp] theorem writeDirReg_port (g : PortGroup) (v : Byte) (s : State) :
    (writeDirReg g v s).port = s.port := rfl
@[simp] theorem writeDirReg_dir (g : PortGroup) (v : Byte) (s : State) :
    (writeDirReg g v s).dir = Memory.write s.dir g v := rfl
@[simp] theorem writeDirReg_ie (g : PortGroup) (v : Byte) (s : State) :
    (writeDirReg g v s).ie = s.ie := rfl
@[simp] theorem writeDirReg_time (g : PortGroup) (v : Byte) (s : State) :
    (writeDirReg g v s).time = s.time := rfl
@[simp] theorem writeDirReg_out (g : PortGroup) (v : Byte) (s : State) :
    (writeDirReg g v s).out = s.out := rfl
@[simp] theorem writeDirReg_wave (g : PortGroup) (v : Byte) (s : State) :
    (writeDirReg g v s).wave = s.wave := rfl
@[simp] theorem writeDirReg_attachResult (g : PortGroup) (v : Byte) (s : State) :
    (writeDirReg g v s).attachResult = s.attachResult := rfl
@[simp] theorem writeDirReg_inputs (g : PortGroup) (v : Byte) (s : State) :
    (writeDirReg g v s).inputs = s.inputs := rfl
@[simp] theorem writeDirReg_drawIx (g : PortGroup) (v : Byte) (s : State) :
    (writeDirReg g v s).drawIx = s.drawIx := rfl

@[simp] theorem emit_config (e : Event) (s : State) : (emit e s).config = s.config := rfl
@[simp] theorem emit_params (e : Event) (s : State) : (emit e s).params = s.params := rfl
@[simp] theorem emit_attached (e : Event) (s : State) : (emit e s).attached = s.attached := rfl
@[simp] theorem emit_dirty (e : Event) (s : State) : (emit e s).dirty = s.dirty := rfl
@[simp] theorem emit_lastTx (e : Event) (s : State) : (emit e s).lastTx = s.lastTx := rfl
@[simp] theorem emit_cfg (e : Event) (s : State) : (emit e s).cfg = s.cfg := rfl
@[simp] theorem emit_buf (e : Event) (s : State) : (emit e s).buf = s.buf := rfl
@[simp] theorem emit_busy (e : Event) (s : State) : (emit e s).busy = s.busy := rfl
@[simp] theorem emit_cursor (e : Event) (s : State) : (emit e s).cursor = s.cursor := rfl
@[simp] theorem emit_savedIe (e : Event) (s : State) : (emit e s).savedIe = s.savedIe := rfl
@[simp] theorem emit_dly (e : Event) (s : State) : (emit e s).dly = s.dly := rfl
@[simp] theorem emit_port (e : Event) (s : State) : (emit e s).port = s.port := rfl
@[simp] theorem emit_dir (e : Event) (s : State) : (emit e s).dir = s.dir := rfl
@[simp] theorem emit_ie (e : Event) (s : State) : (emit e s).ie = s.ie := rfl
@[simp] theorem emit_time (e : Event) (s : State) : (emit e s).time = s.time := rfl
@[simp] theorem emit_out (e : Event) (s : State) : (emit e s).out = s.out ++ [e] := rfl
@[simp] theorem emit_wave (e : Event) (s : State) : (emit e s).wave = s.wave := rfl
@[simp] theorem emit_attachResult (e : Event) (s : State) :
    (emit e s).attachResult = s.attachResult := rfl
@[simp] theorem emit_inputs (e : Event) (s : State) : (emit e s).inputs = s.inputs := rfl
@[simp] theorem emit_drawIx (e : Event) (s : State) : (emit e s).drawIx = s.drawIx := rfl

@[simp] theorem release_config (s : State) : (release s).config = s.config := rfl
@[simp] theorem release_params (s : State) : (release s).params = s.params := rfl
@[simp] theorem release_attached (s : State) : (release s).attached = false := rfl
@[simp] theorem release_dirty (s : State) : (release s).dirty = false := rfl
@[simp] theorem release_lastTx (s : State) : (release s).lastTx = 0 := rfl
@[simp] theorem release_cfg (s : State) : (release s).cfg = .invalid := rfl
@[simp] theorem release_buf (s : State) : (release s).buf = [] := rfl
@[simp] theorem release_busy (s : State) : (release s).busy = s.busy := rfl
@[simp] theorem release_cursor (s : State) : (release s).cursor = s.cursor := rfl
@[simp] theorem release_savedIe (s : State) : (release s).savedIe = s.savedIe := rfl
@[simp] theorem release_dly (s : State) : (release s).dly = s.dly := rfl
@[simp] theorem release_port (s : State) : (release s).port = s.port := rfl
@[simp] theorem release_dir (s : State) : (release s).dir = s.dir := rfl
@[simp] theorem release_ie (s : State) : (release s).ie = s.ie := rfl
@[simp] theorem release_time (s : State) : (release s).time = s.time := rfl
@[simp] theorem release_out (s : State) : (release s).out = s.out := rfl
@[simp] theorem release_wave (s : State) : (release s).wave = s.wave := rfl
@[simp] theorem release_attachResult (s : State) : (release s).attachResult = s.attachResult := rfl
@[simp] theorem release_inputs (s : State) : (release s).inputs = s.inputs := rfl
@[simp] theorem release_drawIx (s : State) : (release s).drawIx = s.drawIx := rfl

@[simp] theorem raiseErr_config (k : ErrKind) (s : State) : (raiseErr k s).config = s.config := rfl
@[simp] theorem raiseErr_params (k : ErrKind) (s : State) : (raiseErr k s).params = s.params := rfl
@[simp] theorem raiseErr_attached (k : ErrKind) (s : State) :
    (raiseErr k s).attached = s.attached := rfl
@[simp] theorem raiseErr_dirty (k : ErrKind) (s : State) : (raiseErr k s).dirty = s.dirty := rfl
@[simp] theorem raiseErr_lastTx (k : ErrKind) (s : State) : (raiseErr k s).lastTx = s.lastTx := rfl
@[simp] theorem raiseErr_cfg (k : ErrKind) (s : State) : (raiseErr k s).cfg = s.cfg := rfl
@[simp] theorem raiseErr_buf (k : ErrKind) (s : State) : (raiseErr k s).buf = s.buf := rfl
@[simp] theorem raiseErr_busy (k : ErrKind) (s : State) : (raiseErr k s).busy = s.busy := rfl
@[simp] theorem raiseErr_cursor (k : ErrKind) (s : State) : (raiseErr k s).cursor = s.cursor := rfl
@[simp] theorem raiseErr_savedIe (k : ErrKind) (s : State) :
    (raiseErr k s).savedIe = s.savedIe := rfl
@[simp] theorem raiseErr_dly (k : ErrKind) (s : State) : (raiseErr k s).dly = s.dly := rfl
@[simp] theorem raiseErr_port (k : ErrKind) (s : State) : (raiseErr k s).port = s.port := rfl
@[simp] theorem raiseErr_dir (k : ErrKind) (s : State) : (raiseErr k s).dir = s.dir := rfl
@[simp] theorem raiseErr_ie (k : ErrKind) (s : State) : (raiseErr k s).ie = s.ie := rfl
@[simp] theorem raiseErr_time (k : ErrKind) (s : State) : (raiseErr k s).time = s.time := rfl
@[simp] theorem raiseErr_out (k : ErrKind) (s : State) :
    (raiseErr k s).out = s.out ++ [.err (errCode s.params k) (Config.errMessage s.drawIx)] := rfl
@[simp] theorem raiseErr_wave (k : ErrKind) (s : State) : (raiseErr k s).wave = s.wave := rfl
@[simp] theorem raiseErr_attachResult (k : ErrKind) (s : State) :
    (raiseErr k s).attachResult = s.attachResult := rfl
@[simp] theorem raiseErr_inputs (k : ErrKind) (s : State) : (raiseErr k s).inputs = s.inputs := rfl
@[simp] theorem raiseErr_drawIx (k : ErrKind) (s : State) :
    (raiseErr k s).drawIx = s.drawIx + 1 := rfl

@[simp] theorem returnFailure_config (s : State) : (returnFailure s).config = s.config := rfl
@[simp] theorem returnFailure_params (s : State) : (returnFailure s).params = s.params := rfl
@[simp] theorem returnFailure_attached (s : State) : (returnFailure s).attached = s.attached := rfl
@[simp] theorem returnFailure_dirty (s : State) : (returnFailure s).dirty = s.dirty := rfl
@[simp] theorem returnFailure_lastTx (s : State) : (returnFailure s).lastTx = s.lastTx := rfl
@[simp] theorem returnFailure_cfg (s : State) : (returnFailure s).cfg = s.cfg := rfl
@[simp] theorem returnFailure_buf (s : State) : (returnFailure s).buf = s.buf := rfl
@[simp] theorem returnFailure_busy (s : State) : (returnFailure s).busy = s.busy := rfl
@[simp] theorem returnFailure_cursor (s : State) : (returnFailure s).cursor = s.cursor := rfl
@[simp] theorem returnFailure_savedIe (s : State) : (returnFailure s).savedIe = s.savedIe := rfl
@[simp] theorem returnFailure_dly (s : State) : (returnFailure s).dly = s.dly := rfl
@[simp] theorem returnFailure_port (s : State) : (returnFailure s).port = s.port := rfl
@[simp] theorem returnFailure_dir (s : State) : (returnFailure s).dir = s.dir := rfl
@[simp] theorem returnFailure_ie (s : State) : (returnFailure s).ie = s.ie := rfl
@[simp] theorem returnFailure_time (s : State) : (returnFailure s).time = s.time := rfl
@[simp] theorem returnFailure_out (s : State) : (returnFailure s).out = s.out := rfl
@[simp] theorem returnFailure_wave (s : State) : (returnFailure s).wave = s.wave := rfl
@[simp] theorem returnFailure_attachResult (s : State) :
    (returnFailure s).attachResult = .failure := rfl
@[simp] theorem returnFailure_inputs (s : State) : (returnFailure s).inputs = s.inputs := rfl
@[simp] theorem returnFailure_drawIx (s : State) : (returnFailure s).drawIx = s.drawIx := rfl

@[simp] theorem makeOutput_config (g : PortGroup) (m : Byte) (s : State) :
    (makeOutput g m s).config = s.config := rfl
@[simp] theorem makeOutput_params (g : PortGroup) (m : Byte) (s : State) :
    (makeOutput g m s).params = s.params := rfl
@[simp] theorem makeOutput_attached (g : PortGroup) (m : Byte) (s : State) :
    (makeOutput g m s).attached = s.attached := rfl
@[simp] theorem makeOutput_dirty (g : PortGroup) (m : Byte) (s : State) :
    (makeOutput g m s).dirty = s.dirty := rfl
@[simp] theorem makeOutput_lastTx (g : PortGroup) (m : Byte) (s : State) :
    (makeOutput g m s).lastTx = s.lastTx := rfl
@[simp] theorem makeOutput_cfg (g : PortGroup) (m : Byte) (s : State) :
    (makeOutput g m s).cfg = s.cfg := rfl
@[simp] theorem makeOutput_buf (g : PortGroup) (m : Byte) (s : State) :
    (makeOutput g m s).buf = s.buf := rfl
@[simp] theorem makeOutput_busy (g : PortGroup) (m : Byte) (s : State) :
    (makeOutput g m s).busy = s.busy := rfl
@[simp] theorem makeOutput_cursor (g : PortGroup) (m : Byte) (s : State) :
    (makeOutput g m s).cursor = s.cursor := rfl
@[simp] theorem makeOutput_savedIe (g : PortGroup) (m : Byte) (s : State) :
    (makeOutput g m s).savedIe = s.savedIe := rfl
@[simp] theorem makeOutput_dly (g : PortGroup) (m : Byte) (s : State) :
    (makeOutput g m s).dly = s.dly := rfl
@[simp] theorem makeOutput_port (g : PortGroup) (m : Byte) (s : State) :
    (makeOutput g m s).port = s.port := rfl
@[simp] theorem makeOutput_dir (g : PortGroup) (m : Byte) (s : State) :
    (makeOutput g m s).dir = Memory.write s.dir g (dirReg g s ||| m) := rfl
@[simp] theorem makeOutput_ie (g : PortGroup) (m : Byte) (s : State) :
    (makeOutput g m s).ie = s.ie := rfl
@[simp] theorem makeOutput_time (g : PortGroup) (m : Byte) (s : State) :
    (makeOutput g m s).time = s.time := rfl
@[simp] theorem makeOutput_out (g : PortGroup) (m : Byte) (s : State) :
    (makeOutput g m s).out = s.out ++ [.dirOut g m] := rfl
@[simp] theorem makeOutput_wave (g : PortGroup) (m : Byte) (s : State) :
    (makeOutput g m s).wave = s.wave := rfl
@[simp] theorem makeOutput_attachResult (g : PortGroup) (m : Byte) (s : State) :
    (makeOutput g m s).attachResult = s.attachResult := rfl
@[simp] theorem makeOutput_inputs (g : PortGroup) (m : Byte) (s : State) :
    (makeOutput g m s).inputs = s.inputs := rfl
@[simp] theorem makeOutput_drawIx (g : PortGroup) (m : Byte) (s : State) :
    (makeOutput g m s).drawIx = s.drawIx := rfl

@[simp] theorem maskEnter_config (s : State) : (maskEnter s).config = s.config := rfl
@[simp] theorem maskEnter_params (s : State) : (maskEnter s).params = s.params := rfl
@[simp] theorem maskEnter_attached (s : State) : (maskEnter s).attached = s.attached := rfl
@[simp] theorem maskEnter_dirty (s : State) : (maskEnter s).dirty = s.dirty := rfl
@[simp] theorem maskEnter_lastTx (s : State) : (maskEnter s).lastTx = s.lastTx := rfl
@[simp] theorem maskEnter_cfg (s : State) : (maskEnter s).cfg = s.cfg := rfl
@[simp] theorem maskEnter_buf (s : State) : (maskEnter s).buf = s.buf := rfl
@[simp] theorem maskEnter_busy (s : State) : (maskEnter s).busy = s.busy := rfl
@[simp] theorem maskEnter_cursor (s : State) : (maskEnter s).cursor = s.cursor := rfl
@[simp] theorem maskEnter_savedIe (s : State) : (maskEnter s).savedIe = s.ie := rfl
@[simp] theorem maskEnter_dly (s : State) : (maskEnter s).dly = s.dly := rfl
@[simp] theorem maskEnter_port (s : State) : (maskEnter s).port = s.port := rfl
@[simp] theorem maskEnter_dir (s : State) : (maskEnter s).dir = s.dir := rfl
@[simp] theorem maskEnter_ie (s : State) : (maskEnter s).ie = false := rfl
@[simp] theorem maskEnter_time (s : State) : (maskEnter s).time = s.time := rfl
@[simp] theorem maskEnter_out (s : State) : (maskEnter s).out = s.out ++ [.maskEnter] := rfl
@[simp] theorem maskEnter_wave (s : State) : (maskEnter s).wave = s.wave := rfl
@[simp] theorem maskEnter_attachResult (s : State) :
    (maskEnter s).attachResult = s.attachResult := rfl
@[simp] theorem maskEnter_inputs (s : State) : (maskEnter s).inputs = s.inputs := rfl
@[simp] theorem maskEnter_drawIx (s : State) : (maskEnter s).drawIx = s.drawIx := rfl

@[simp] theorem maskExit_config (s : State) : (maskExit s).config = s.config := rfl
@[simp] theorem maskExit_params (s : State) : (maskExit s).params = s.params := rfl
@[simp] theorem maskExit_attached (s : State) : (maskExit s).attached = s.attached := rfl
@[simp] theorem maskExit_dirty (s : State) : (maskExit s).dirty = s.dirty := rfl
@[simp] theorem maskExit_lastTx (s : State) : (maskExit s).lastTx = s.lastTx := rfl
@[simp] theorem maskExit_cfg (s : State) : (maskExit s).cfg = s.cfg := rfl
@[simp] theorem maskExit_buf (s : State) : (maskExit s).buf = s.buf := rfl
@[simp] theorem maskExit_busy (s : State) : (maskExit s).busy = s.busy := rfl
@[simp] theorem maskExit_cursor (s : State) : (maskExit s).cursor = s.cursor := rfl
@[simp] theorem maskExit_savedIe (s : State) : (maskExit s).savedIe = s.savedIe := rfl
@[simp] theorem maskExit_dly (s : State) : (maskExit s).dly = s.dly := rfl
@[simp] theorem maskExit_port (s : State) : (maskExit s).port = s.port := rfl
@[simp] theorem maskExit_dir (s : State) : (maskExit s).dir = s.dir := rfl
@[simp] theorem maskExit_ie (s : State) : (maskExit s).ie = s.savedIe := rfl
@[simp] theorem maskExit_time (s : State) : (maskExit s).time = s.time := rfl
@[simp] theorem maskExit_out (s : State) : (maskExit s).out = s.out ++ [.maskExit] := rfl
@[simp] theorem maskExit_wave (s : State) : (maskExit s).wave = s.wave := rfl
@[simp] theorem maskExit_attachResult (s : State) :
    (maskExit s).attachResult = s.attachResult := rfl
@[simp] theorem maskExit_inputs (s : State) : (maskExit s).inputs = s.inputs := rfl
@[simp] theorem maskExit_drawIx (s : State) : (maskExit s).drawIx = s.drawIx := rfl

@[simp] theorem setHigh_config (l : Line) (s : State) : (setHigh l s).config = s.config := rfl
@[simp] theorem setHigh_params (l : Line) (s : State) : (setHigh l s).params = s.params := rfl
@[simp] theorem setHigh_attached (l : Line) (s : State) : (setHigh l s).attached = s.attached := rfl
@[simp] theorem setHigh_dirty (l : Line) (s : State) : (setHigh l s).dirty = s.dirty := rfl
@[simp] theorem setHigh_lastTx (l : Line) (s : State) : (setHigh l s).lastTx = s.lastTx := rfl
@[simp] theorem setHigh_cfg (l : Line) (s : State) : (setHigh l s).cfg = s.cfg := rfl
@[simp] theorem setHigh_buf (l : Line) (s : State) : (setHigh l s).buf = s.buf := rfl
@[simp] theorem setHigh_busy (l : Line) (s : State) : (setHigh l s).busy = s.busy := rfl
@[simp] theorem setHigh_cursor (l : Line) (s : State) : (setHigh l s).cursor = s.cursor := rfl
@[simp] theorem setHigh_savedIe (l : Line) (s : State) : (setHigh l s).savedIe = s.savedIe := rfl
@[simp] theorem setHigh_dly (l : Line) (s : State) : (setHigh l s).dly = s.dly := rfl
@[simp] theorem setHigh_port (l : Line) (s : State) :
    (setHigh l s).port = Memory.write s.port l.group (portReg l.group s ||| l.mask) := rfl
@[simp] theorem setHigh_dir (l : Line) (s : State) : (setHigh l s).dir = s.dir := rfl
@[simp] theorem setHigh_ie (l : Line) (s : State) : (setHigh l s).ie = s.ie := rfl
@[simp] theorem setHigh_time (l : Line) (s : State) : (setHigh l s).time = s.time := rfl
@[simp] theorem setHigh_out (l : Line) (s : State) :
    (setHigh l s).out = s.out ++ [.pinHigh l.group l.mask] := rfl
@[simp] theorem setHigh_wave (l : Line) (s : State) : (setHigh l s).wave = s.wave := rfl
@[simp] theorem setHigh_attachResult (l : Line) (s : State) :
    (setHigh l s).attachResult = s.attachResult := rfl
@[simp] theorem setHigh_inputs (l : Line) (s : State) : (setHigh l s).inputs = s.inputs := rfl
@[simp] theorem setHigh_drawIx (l : Line) (s : State) : (setHigh l s).drawIx = s.drawIx := rfl

@[simp] theorem setLow_config (l : Line) (s : State) : (setLow l s).config = s.config := rfl
@[simp] theorem setLow_params (l : Line) (s : State) : (setLow l s).params = s.params := rfl
@[simp] theorem setLow_attached (l : Line) (s : State) : (setLow l s).attached = s.attached := rfl
@[simp] theorem setLow_dirty (l : Line) (s : State) : (setLow l s).dirty = s.dirty := rfl
@[simp] theorem setLow_lastTx (l : Line) (s : State) : (setLow l s).lastTx = s.lastTx := rfl
@[simp] theorem setLow_cfg (l : Line) (s : State) : (setLow l s).cfg = s.cfg := rfl
@[simp] theorem setLow_buf (l : Line) (s : State) : (setLow l s).buf = s.buf := rfl
@[simp] theorem setLow_busy (l : Line) (s : State) : (setLow l s).busy = s.busy := rfl
@[simp] theorem setLow_cursor (l : Line) (s : State) : (setLow l s).cursor = s.cursor := rfl
@[simp] theorem setLow_savedIe (l : Line) (s : State) : (setLow l s).savedIe = s.savedIe := rfl
@[simp] theorem setLow_dly (l : Line) (s : State) : (setLow l s).dly = s.dly := rfl
@[simp] theorem setLow_port (l : Line) (s : State) :
    (setLow l s).port = Memory.write s.port l.group (portReg l.group s &&& ~~~l.mask) := rfl
@[simp] theorem setLow_dir (l : Line) (s : State) : (setLow l s).dir = s.dir := rfl
@[simp] theorem setLow_ie (l : Line) (s : State) : (setLow l s).ie = s.ie := rfl
@[simp] theorem setLow_time (l : Line) (s : State) : (setLow l s).time = s.time := rfl
@[simp] theorem setLow_out (l : Line) (s : State) :
    (setLow l s).out = s.out ++ [.pinLow l.group l.mask] := rfl
@[simp] theorem setLow_wave (l : Line) (s : State) : (setLow l s).wave = s.wave := rfl
@[simp] theorem setLow_attachResult (l : Line) (s : State) :
    (setLow l s).attachResult = s.attachResult := rfl
@[simp] theorem setLow_inputs (l : Line) (s : State) : (setLow l s).inputs = s.inputs := rfl
@[simp] theorem setLow_drawIx (l : Line) (s : State) : (setLow l s).drawIx = s.drawIx := rfl

@[simp] theorem advance_config (s : State) : (advance s).config = s.config := rfl
@[simp] theorem advance_params (s : State) : (advance s).params = s.params := rfl
@[simp] theorem advance_attached (s : State) : (advance s).attached = s.attached := rfl
@[simp] theorem advance_dirty (s : State) : (advance s).dirty = s.dirty := rfl
@[simp] theorem advance_lastTx (s : State) : (advance s).lastTx = s.lastTx := rfl
@[simp] theorem advance_cfg (s : State) : (advance s).cfg = s.cfg := rfl
@[simp] theorem advance_buf (s : State) : (advance s).buf = s.buf := rfl
@[simp] theorem advance_busy (s : State) : (advance s).busy = s.busy := rfl
@[simp] theorem advance_cursor (s : State) : (advance s).cursor = s.cursor.next := rfl
@[simp] theorem advance_savedIe (s : State) : (advance s).savedIe = s.savedIe := rfl
@[simp] theorem advance_dly (s : State) : (advance s).dly = s.dly := rfl
@[simp] theorem advance_port (s : State) : (advance s).port = s.port := rfl
@[simp] theorem advance_dir (s : State) : (advance s).dir = s.dir := rfl
@[simp] theorem advance_ie (s : State) : (advance s).ie = s.ie := rfl
@[simp] theorem advance_time (s : State) : (advance s).time = s.time := rfl
@[simp] theorem advance_out (s : State) : (advance s).out = s.out := rfl
@[simp] theorem advance_wave (s : State) : (advance s).wave = s.wave := rfl
@[simp] theorem advance_attachResult (s : State) : (advance s).attachResult = s.attachResult := rfl
@[simp] theorem advance_inputs (s : State) : (advance s).inputs = s.inputs := rfl
@[simp] theorem advance_drawIx (s : State) : (advance s).drawIx = s.drawIx := rfl

@[simp] theorem recordSymbol_config (b : Bool) (s : State) :
    (recordSymbol b s).config = s.config := rfl
@[simp] theorem recordSymbol_params (b : Bool) (s : State) :
    (recordSymbol b s).params = s.params := rfl
@[simp] theorem recordSymbol_attached (b : Bool) (s : State) :
    (recordSymbol b s).attached = s.attached := rfl
@[simp] theorem recordSymbol_dirty (b : Bool) (s : State) :
    (recordSymbol b s).dirty = s.dirty := rfl
@[simp] theorem recordSymbol_lastTx (b : Bool) (s : State) :
    (recordSymbol b s).lastTx = s.lastTx := rfl
@[simp] theorem recordSymbol_cfg (b : Bool) (s : State) : (recordSymbol b s).cfg = s.cfg := rfl
@[simp] theorem recordSymbol_buf (b : Bool) (s : State) : (recordSymbol b s).buf = s.buf := rfl
@[simp] theorem recordSymbol_busy (b : Bool) (s : State) : (recordSymbol b s).busy = s.busy := rfl
@[simp] theorem recordSymbol_cursor (b : Bool) (s : State) :
    (recordSymbol b s).cursor = s.cursor := rfl
@[simp] theorem recordSymbol_savedIe (b : Bool) (s : State) :
    (recordSymbol b s).savedIe = s.savedIe := rfl
@[simp] theorem recordSymbol_dly (b : Bool) (s : State) : (recordSymbol b s).dly = s.dly := rfl
@[simp] theorem recordSymbol_port (b : Bool) (s : State) : (recordSymbol b s).port = s.port := rfl
@[simp] theorem recordSymbol_dir (b : Bool) (s : State) : (recordSymbol b s).dir = s.dir := rfl
@[simp] theorem recordSymbol_ie (b : Bool) (s : State) : (recordSymbol b s).ie = s.ie := rfl
@[simp] theorem recordSymbol_time (b : Bool) (s : State) : (recordSymbol b s).time = s.time := rfl
@[simp] theorem recordSymbol_out (b : Bool) (s : State) : (recordSymbol b s).out = s.out := rfl
@[simp] theorem recordSymbol_wave (b : Bool) (s : State) :
    (recordSymbol b s).wave = s.wave ++ symbolWave s.params b s.ie s.drawIx := rfl
@[simp] theorem recordSymbol_attachResult (b : Bool) (s : State) :
    (recordSymbol b s).attachResult = s.attachResult := rfl
@[simp] theorem recordSymbol_inputs (b : Bool) (s : State) :
    (recordSymbol b s).inputs = s.inputs := rfl
@[simp] theorem recordSymbol_drawIx (b : Bool) (s : State) :
    (recordSymbol b s).drawIx = s.drawIx + 1 := rfl

@[simp] theorem startFrame_config (s : State) : (startFrame s).config = s.config := rfl
@[simp] theorem startFrame_params (s : State) : (startFrame s).params = s.params := rfl
@[simp] theorem startFrame_attached (s : State) : (startFrame s).attached = s.attached := rfl
@[simp] theorem startFrame_dirty (s : State) : (startFrame s).dirty = s.dirty := rfl
@[simp] theorem startFrame_lastTx (s : State) : (startFrame s).lastTx = s.lastTx := rfl
@[simp] theorem startFrame_cfg (s : State) : (startFrame s).cfg = s.cfg := rfl
@[simp] theorem startFrame_buf (s : State) : (startFrame s).buf = s.buf := rfl
@[simp] theorem startFrame_busy (s : State) : (startFrame s).busy = true := rfl
@[simp] theorem startFrame_cursor (s : State) : (startFrame s).cursor = Cursor.start := rfl
@[simp] theorem startFrame_savedIe (s : State) : (startFrame s).savedIe = s.savedIe := rfl
@[simp] theorem startFrame_dly (s : State) : (startFrame s).dly = s.dly := rfl
@[simp] theorem startFrame_port (s : State) : (startFrame s).port = s.port := rfl
@[simp] theorem startFrame_dir (s : State) : (startFrame s).dir = s.dir := rfl
@[simp] theorem startFrame_ie (s : State) : (startFrame s).ie = s.ie := rfl
@[simp] theorem startFrame_time (s : State) : (startFrame s).time = s.time := rfl
@[simp] theorem startFrame_out (s : State) : (startFrame s).out = s.out := rfl
@[simp] theorem startFrame_wave (s : State) : (startFrame s).wave = s.wave := rfl
@[simp] theorem startFrame_attachResult (s : State) :
    (startFrame s).attachResult = s.attachResult := rfl
@[simp] theorem startFrame_inputs (s : State) : (startFrame s).inputs = s.inputs := rfl
@[simp] theorem startFrame_drawIx (s : State) : (startFrame s).drawIx = s.drawIx := rfl

@[simp] theorem endFrame_config (s : State) : (endFrame s).config = s.config := rfl
@[simp] theorem endFrame_params (s : State) : (endFrame s).params = s.params := rfl
@[simp] theorem endFrame_attached (s : State) : (endFrame s).attached = s.attached := rfl
@[simp] theorem endFrame_dirty (s : State) : (endFrame s).dirty = s.dirty := rfl
@[simp] theorem endFrame_lastTx (s : State) : (endFrame s).lastTx = s.lastTx := rfl
@[simp] theorem endFrame_cfg (s : State) : (endFrame s).cfg = s.cfg := rfl
@[simp] theorem endFrame_buf (s : State) : (endFrame s).buf = s.buf := rfl
@[simp] theorem endFrame_busy (s : State) : (endFrame s).busy = false := rfl
@[simp] theorem endFrame_cursor (s : State) : (endFrame s).cursor = s.cursor := rfl
@[simp] theorem endFrame_savedIe (s : State) : (endFrame s).savedIe = s.savedIe := rfl
@[simp] theorem endFrame_dly (s : State) : (endFrame s).dly = s.dly := rfl
@[simp] theorem endFrame_port (s : State) : (endFrame s).port = s.port := rfl
@[simp] theorem endFrame_dir (s : State) : (endFrame s).dir = s.dir := rfl
@[simp] theorem endFrame_ie (s : State) : (endFrame s).ie = s.ie := rfl
@[simp] theorem endFrame_time (s : State) : (endFrame s).time = s.time := rfl
@[simp] theorem endFrame_out (s : State) : (endFrame s).out = s.out := rfl
@[simp] theorem endFrame_wave (s : State) : (endFrame s).wave = s.wave := rfl
@[simp] theorem endFrame_attachResult (s : State) :
    (endFrame s).attachResult = s.attachResult := rfl
@[simp] theorem endFrame_inputs (s : State) : (endFrame s).inputs = s.inputs := rfl
@[simp] theorem endFrame_drawIx (s : State) : (endFrame s).drawIx = s.drawIx := rfl

@[simp] theorem frameShown_config (t : Stamp) (s : State) :
    (frameShown t s).config = s.config := rfl
@[simp] theorem frameShown_params (t : Stamp) (s : State) :
    (frameShown t s).params = s.params := rfl
@[simp] theorem frameShown_attached (t : Stamp) (s : State) :
    (frameShown t s).attached = s.attached := rfl
@[simp] theorem frameShown_dirty (t : Stamp) (s : State) : (frameShown t s).dirty = false := rfl
@[simp] theorem frameShown_lastTx (t : Stamp) (s : State) : (frameShown t s).lastTx = t := rfl
@[simp] theorem frameShown_cfg (t : Stamp) (s : State) : (frameShown t s).cfg = s.cfg := rfl
@[simp] theorem frameShown_buf (t : Stamp) (s : State) : (frameShown t s).buf = s.buf := rfl
@[simp] theorem frameShown_busy (t : Stamp) (s : State) : (frameShown t s).busy = s.busy := rfl
@[simp] theorem frameShown_cursor (t : Stamp) (s : State) :
    (frameShown t s).cursor = s.cursor := rfl
@[simp] theorem frameShown_savedIe (t : Stamp) (s : State) :
    (frameShown t s).savedIe = s.savedIe := rfl
@[simp] theorem frameShown_dly (t : Stamp) (s : State) : (frameShown t s).dly = s.dly := rfl
@[simp] theorem frameShown_port (t : Stamp) (s : State) : (frameShown t s).port = s.port := rfl
@[simp] theorem frameShown_dir (t : Stamp) (s : State) : (frameShown t s).dir = s.dir := rfl
@[simp] theorem frameShown_ie (t : Stamp) (s : State) : (frameShown t s).ie = s.ie := rfl
@[simp] theorem frameShown_time (t : Stamp) (s : State) : (frameShown t s).time = s.time := rfl
@[simp] theorem frameShown_out (t : Stamp) (s : State) : (frameShown t s).out = s.out := rfl
@[simp] theorem frameShown_wave (t : Stamp) (s : State) : (frameShown t s).wave = s.wave := rfl
@[simp] theorem frameShown_attachResult (t : Stamp) (s : State) :
    (frameShown t s).attachResult = s.attachResult := rfl
@[simp] theorem frameShown_inputs (t : Stamp) (s : State) :
    (frameShown t s).inputs = s.inputs := rfl
@[simp] theorem frameShown_drawIx (t : Stamp) (s : State) :
    (frameShown t s).drawIx = s.drawIx := rfl

@[simp] theorem patched_config (n : Nat) (qs : List Quad) (s : State) :
    (patched n qs s).config = s.config := rfl
@[simp] theorem patched_params (n : Nat) (qs : List Quad) (s : State) :
    (patched n qs s).params = s.params := rfl
@[simp] theorem patched_attached (n : Nat) (qs : List Quad) (s : State) :
    (patched n qs s).attached = s.attached := rfl
@[simp] theorem patched_dirty (n : Nat) (qs : List Quad) (s : State) :
    (patched n qs s).dirty = true := rfl
@[simp] theorem patched_lastTx (n : Nat) (qs : List Quad) (s : State) :
    (patched n qs s).lastTx = s.lastTx := rfl
@[simp] theorem patched_cfg (n : Nat) (qs : List Quad) (s : State) :
    (patched n qs s).cfg = s.cfg := rfl
@[simp] theorem patched_buf (n : Nat) (qs : List Quad) (s : State) :
    (patched n qs s).buf = applyQuads n qs s.buf := rfl
@[simp] theorem patched_busy (n : Nat) (qs : List Quad) (s : State) :
    (patched n qs s).busy = s.busy := rfl
@[simp] theorem patched_cursor (n : Nat) (qs : List Quad) (s : State) :
    (patched n qs s).cursor = s.cursor := rfl
@[simp] theorem patched_savedIe (n : Nat) (qs : List Quad) (s : State) :
    (patched n qs s).savedIe = s.savedIe := rfl
@[simp] theorem patched_dly (n : Nat) (qs : List Quad) (s : State) :
    (patched n qs s).dly = s.dly := rfl
@[simp] theorem patched_port (n : Nat) (qs : List Quad) (s : State) :
    (patched n qs s).port = s.port := rfl
@[simp] theorem patched_dir (n : Nat) (qs : List Quad) (s : State) :
    (patched n qs s).dir = s.dir := rfl
@[simp] theorem patched_ie (n : Nat) (qs : List Quad) (s : State) :
    (patched n qs s).ie = s.ie := rfl
@[simp] theorem patched_time (n : Nat) (qs : List Quad) (s : State) :
    (patched n qs s).time = s.time := rfl
@[simp] theorem patched_out (n : Nat) (qs : List Quad) (s : State) :
    (patched n qs s).out = s.out := rfl
@[simp] theorem patched_wave (n : Nat) (qs : List Quad) (s : State) :
    (patched n qs s).wave = s.wave := rfl
@[simp] theorem patched_attachResult (n : Nat) (qs : List Quad) (s : State) :
    (patched n qs s).attachResult = s.attachResult := rfl
@[simp] theorem patched_inputs (n : Nat) (qs : List Quad) (s : State) :
    (patched n qs s).inputs = s.inputs := rfl
@[simp] theorem patched_drawIx (n : Nat) (qs : List Quad) (s : State) :
    (patched n qs s).drawIx = s.drawIx := rfl

@[simp] theorem attachTo_config (pin n : Byte) (g : PortGroup) (k : Nat) (s : State) :
    (attachTo pin n g k s).config = s.config := rfl
@[simp] theorem attachTo_params (pin n : Byte) (g : PortGroup) (k : Nat) (s : State) :
    (attachTo pin n g k s).params = s.params := rfl
@[simp] theorem attachTo_attached (pin n : Byte) (g : PortGroup) (k : Nat) (s : State) :
    (attachTo pin n g k s).attached = true := rfl
@[simp] theorem attachTo_dirty (pin n : Byte) (g : PortGroup) (k : Nat) (s : State) :
    (attachTo pin n g k s).dirty = true := rfl
@[simp] theorem attachTo_lastTx (pin n : Byte) (g : PortGroup) (k : Nat) (s : State) :
    (attachTo pin n g k s).lastTx = 0 := rfl
@[simp] theorem attachTo_cfg (pin n : Byte) (g : PortGroup) (k : Nat) (s : State) :
    (attachTo pin n g k s).cfg = .valid ⟨pin, n, g, oneHot k⟩ := rfl
@[simp] theorem attachTo_buf (pin n : Byte) (g : PortGroup) (k : Nat) (s : State) :
    (attachTo pin n g k s).buf = List.replicate n.toNat black := rfl
@[simp] theorem attachTo_busy (pin n : Byte) (g : PortGroup) (k : Nat) (s : State) :
    (attachTo pin n g k s).busy = s.busy := rfl
@[simp] theorem attachTo_cursor (pin n : Byte) (g : PortGroup) (k : Nat) (s : State) :
    (attachTo pin n g k s).cursor = s.cursor := rfl
@[simp] theorem attachTo_savedIe (pin n : Byte) (g : PortGroup) (k : Nat) (s : State) :
    (attachTo pin n g k s).savedIe = s.savedIe := rfl
@[simp] theorem attachTo_dly (pin n : Byte) (g : PortGroup) (k : Nat) (s : State) :
    (attachTo pin n g k s).dly = s.dly := rfl
@[simp] theorem attachTo_port (pin n : Byte) (g : PortGroup) (k : Nat) (s : State) :
    (attachTo pin n g k s).port = s.port := rfl
@[simp] theorem attachTo_dir (pin n : Byte) (g : PortGroup) (k : Nat) (s : State) :
    (attachTo pin n g k s).dir = Memory.write s.dir g (dirReg g s ||| oneHot k) := rfl
@[simp] theorem attachTo_ie (pin n : Byte) (g : PortGroup) (k : Nat) (s : State) :
    (attachTo pin n g k s).ie = s.ie := rfl
@[simp] theorem attachTo_time (pin n : Byte) (g : PortGroup) (k : Nat) (s : State) :
    (attachTo pin n g k s).time = s.time := rfl
@[simp] theorem attachTo_out (pin n : Byte) (g : PortGroup) (k : Nat) (s : State) :
    (attachTo pin n g k s).out = s.out ++ [.dirOut g (oneHot k)] ++ [.regNotify] := rfl
@[simp] theorem attachTo_wave (pin n : Byte) (g : PortGroup) (k : Nat) (s : State) :
    (attachTo pin n g k s).wave = s.wave := rfl
@[simp] theorem attachTo_attachResult (pin n : Byte) (g : PortGroup) (k : Nat) (s : State) :
    (attachTo pin n g k s).attachResult = .success := rfl
@[simp] theorem attachTo_inputs (pin n : Byte) (g : PortGroup) (k : Nat) (s : State) :
    (attachTo pin n g k s).inputs = s.inputs := rfl
@[simp] theorem attachTo_drawIx (pin n : Byte) (g : PortGroup) (k : Nat) (s : State) :
    (attachTo pin n g k s).drawIx = s.drawIx := rfl

@[simp] theorem attachFails_config (k : ErrKind) (s : State) :
    (attachFails k s).config = s.config := rfl
@[simp] theorem attachFails_params (k : ErrKind) (s : State) :
    (attachFails k s).params = s.params := rfl
@[simp] theorem attachFails_attached (k : ErrKind) (s : State) :
    (attachFails k s).attached = s.attached := rfl
@[simp] theorem attachFails_dirty (k : ErrKind) (s : State) :
    (attachFails k s).dirty = s.dirty := rfl
@[simp] theorem attachFails_lastTx (k : ErrKind) (s : State) :
    (attachFails k s).lastTx = s.lastTx := rfl
@[simp] theorem attachFails_cfg (k : ErrKind) (s : State) : (attachFails k s).cfg = s.cfg := rfl
@[simp] theorem attachFails_buf (k : ErrKind) (s : State) : (attachFails k s).buf = s.buf := rfl
@[simp] theorem attachFails_busy (k : ErrKind) (s : State) : (attachFails k s).busy = s.busy := rfl
@[simp] theorem attachFails_cursor (k : ErrKind) (s : State) :
    (attachFails k s).cursor = s.cursor := rfl
@[simp] theorem attachFails_savedIe (k : ErrKind) (s : State) :
    (attachFails k s).savedIe = s.savedIe := rfl
@[simp] theorem attachFails_dly (k : ErrKind) (s : State) : (attachFails k s).dly = s.dly := rfl
@[simp] theorem attachFails_port (k : ErrKind) (s : State) : (attachFails k s).port = s.port := rfl
@[simp] theorem attachFails_dir (k : ErrKind) (s : State) : (attachFails k s).dir = s.dir := rfl
@[simp] theorem attachFails_ie (k : ErrKind) (s : State) : (attachFails k s).ie = s.ie := rfl
@[simp] theorem attachFails_time (k : ErrKind) (s : State) : (attachFails k s).time = s.time := rfl
@[simp] theorem attachFails_out (k : ErrKind) (s : State) :
    (attachFails k s).out = s.out ++ [.err (errCode s.params k) (Config.errMessage s.drawIx)] := rfl
@[simp] theorem attachFails_wave (k : ErrKind) (s : State) : (attachFails k s).wave = s.wave := rfl
@[simp] theorem attachFails_attachResult (k : ErrKind) (s : State) :
    (attachFails k s).attachResult = .failure := rfl
@[simp] theorem attachFails_inputs (k : ErrKind) (s : State) :
    (attachFails k s).inputs = s.inputs := rfl
@[simp] theorem attachFails_drawIx (k : ErrKind) (s : State) :
    (attachFails k s).drawIx = s.drawIx + 1 := rfl

theorem countDown_eq (n : Nat) (s : State) : countDown n s = { s with dly := 0 } := by
  induction n generalizing s with
  | zero => rfl
  | succ n ih => rw [countDown, ih]

/-- A wait spends its cycles and leaves an empty down-counter (R130). -/
theorem wait_eq (n : Nat) (s : State) : wait n s = emit (.wait n) { s with dly := 0 } := by
  rw [wait, countDown_eq]

@[simp] theorem wait_config (n : Nat) (s : State) : (wait n s).config = s.config := by
  rw [wait_eq]; rfl
@[simp] theorem wait_params (n : Nat) (s : State) : (wait n s).params = s.params := by
  rw [wait_eq]; rfl
@[simp] theorem wait_attached (n : Nat) (s : State) : (wait n s).attached = s.attached := by
  rw [wait_eq]; rfl
@[simp] theorem wait_dirty (n : Nat) (s : State) : (wait n s).dirty = s.dirty := by
  rw [wait_eq]; rfl
@[simp] theorem wait_lastTx (n : Nat) (s : State) : (wait n s).lastTx = s.lastTx := by
  rw [wait_eq]; rfl
@[simp] theorem wait_cfg (n : Nat) (s : State) : (wait n s).cfg = s.cfg := by
  rw [wait_eq]; rfl
@[simp] theorem wait_buf (n : Nat) (s : State) : (wait n s).buf = s.buf := by
  rw [wait_eq]; rfl
@[simp] theorem wait_busy (n : Nat) (s : State) : (wait n s).busy = s.busy := by
  rw [wait_eq]; rfl
@[simp] theorem wait_cursor (n : Nat) (s : State) : (wait n s).cursor = s.cursor := by
  rw [wait_eq]; rfl
@[simp] theorem wait_savedIe (n : Nat) (s : State) : (wait n s).savedIe = s.savedIe := by
  rw [wait_eq]; rfl
@[simp] theorem wait_dly (n : Nat) (s : State) : (wait n s).dly = 0 := by
  rw [wait_eq]; rfl
@[simp] theorem wait_port (n : Nat) (s : State) : (wait n s).port = s.port := by
  rw [wait_eq]; rfl
@[simp] theorem wait_dir (n : Nat) (s : State) : (wait n s).dir = s.dir := by
  rw [wait_eq]; rfl
@[simp] theorem wait_ie (n : Nat) (s : State) : (wait n s).ie = s.ie := by
  rw [wait_eq]; rfl
@[simp] theorem wait_time (n : Nat) (s : State) : (wait n s).time = s.time := by
  rw [wait_eq]; rfl
@[simp] theorem wait_out (n : Nat) (s : State) : (wait n s).out = s.out ++ [.wait n] := by
  rw [wait_eq]; rfl
@[simp] theorem wait_wave (n : Nat) (s : State) : (wait n s).wave = s.wave := by
  rw [wait_eq]; rfl
@[simp] theorem wait_attachResult (n : Nat) (s : State) : (wait n s).attachResult = s.attachResult := by
  rw [wait_eq]; rfl
@[simp] theorem wait_inputs (n : Nat) (s : State) : (wait n s).inputs = s.inputs := by
  rw [wait_eq]; rfl
@[simp] theorem wait_drawIx (n : Nat) (s : State) : (wait n s).drawIx = s.drawIx := by
  rw [wait_eq]; rfl

/-- The register views read only their own file. -/
@[simp] theorem portReg_eq (g : PortGroup) (s : State) : portReg g s = Memory.read s.port g := rfl

@[simp] theorem dirReg_eq (g : PortGroup) (s : State) : dirReg g s = Memory.read s.dir g := rfl

/-- The parameters are those of the state's one parameter field, whatever the other fields are. -/
@[simp] theorem State.config_params (s : State) : s.config.params = s.params := rfl

@[simp] theorem State.params_mk (config : Config.Valid) (attached dirty : Bool) (lastTx : Stamp)
    (cfg : DevCfg) (buf : List Pixel) (busy : Bool) (cursor : Cursor) (savedIe : Bool) (dly : Nat)
    (port dir : List Host.Cell) (ie : Bool) (time : Stamp) (out : List Event)
    (wave : List Segment) (attachResult : AttachResult) (inputs : List Input) (drawIx : Nat) :
    (State.mk config attached dirty lastTx cfg buf busy cursor savedIe dly port dir ie time out wave
      attachResult inputs drawIx).params = config.params := rfl

/-- Every state holds a well-formed parameter set (R7). -/
theorem State.params_wf (s : State) : s.params.wf = true := s.config.wf

/-- The kind in a report is the code R6 gives the error, no bit of it lost (R93). -/
theorem errCode_toNat (s : State) (k : ErrKind) :
    (errCode s.params k).toNat = errParam s.params k := by
  have h := s.config.codesFit
  simp only [Config.Params.codesFit, Bool.and_eq_true, decide_eq_true_eq] at h
  obtain ⟨⟨h1, h2⟩, h3⟩ := h
  cases k <;> exact Nat.mod_eq_of_lt ‹_›

end Sys2Proof.Machine
end

