-- ==== Sys2Proof/Laws/Engine.lean ====
section
/-! SUPPORT. What the engine and the serializer can do, once each: a bit, a sequence of bits, a byte, a
pixel, a frame. -/

namespace Sys2Proof.Machine

open Sys2Proof.Safety

/-! ### Bytes of a port register under set and clear -/

/-- A pulse leaves the line's bit 0 and the other bits alone (R124, R125). -/
theorem pulse_bits (p m : Byte) : (p ||| m) &&& ~~~m = p &&& ~~~m := by
  ext i; simp; cases p[i] <;> cases m[i] <;> rfl

/-- The register after a pulse. -/
theorem read_pulse {m : List Host.Cell} (h : Memory.wf m = true) (l : Line) (g : PortGroup) :
    Memory.read (Memory.write (Memory.write m l.group (Memory.read m l.group ||| l.mask)) l.group
        (Memory.read (Memory.write m l.group (Memory.read m l.group ||| l.mask)) l.group &&&
          ~~~l.mask)) g =
      if g = l.group then Memory.read m l.group &&& ~~~l.mask else Memory.read m g := by
  have h1 := Memory.write_wf l.group (Memory.read m l.group ||| l.mask) h
  rw [Memory.read_write _ _ h1, Memory.read_write _ _ h, Memory.read_write _ _ h, if_pos rfl,
    pulse_bits]
  by_cases hg : g = l.group <;> simp [hg]

/-! ### The relation `Sent` -/

end Sys2Proof.Machine

namespace Sys2Proof.Safety

open Sys2Proof.Machine

theorem EngineFrame.refl (s : State) : EngineFrame s s :=
  ⟨rfl, rfl, rfl, rfl, rfl, rfl, rfl, rfl, rfl, rfl, rfl⟩

/-- The frame keeps the parameters. -/
theorem EngineFrame.params {s t : State} (h : EngineFrame s t) : t.params = s.params :=
  congrArg Config.Valid.params h.config

theorem EngineFrame.trans {s t u : State} (h : EngineFrame s t) (k : EngineFrame t u) :
    EngineFrame s u :=
  ⟨k.config.trans h.config, k.attached.trans h.attached, k.dirty.trans h.dirty,
   k.lastTx.trans h.lastTx, k.cfg.trans h.cfg, k.buf.trans h.buf, k.dir.trans h.dir,
   k.ie.trans h.ie, k.time.trans h.time, k.attachResult.trans h.attachResult,
   k.inputs.trans h.inputs⟩

theorem Sent.refl (l : Line) (s : State) : Sent l [] s s :=
  ⟨EngineFrame.refl s, fun g => by simp, by simp [bitsTrace], by simp [bitsWave], by simp⟩

theorem bitsWave_append (P : Config.Params) (ie : Bool) (n : Nat) (bs cs : List Bool) :
    bitsWave P ie n (bs ++ cs) = bitsWave P ie n bs ++ bitsWave P ie (n + bs.length) cs := by
  induction bs generalizing n with
  | nil => simp [bitsWave]
  | cons b bs ih => simp [bitsWave, ih, Nat.add_comm, Nat.add_left_comm]

theorem Sent.trans {l : Line} {bs cs : List Bool} {s t u : State} (h : Sent l bs s t)
    (k : Sent l cs t u) : Sent l (bs ++ cs) s u where
  frame := h.frame.trans k.frame
  port := fun g => by
    rw [k.port g, h.port g]
    by_cases hg : g = l.group <;> by_cases hb : bs = [] <;> by_cases hc : cs = [] <;>
      simp [hg, hb, hc, BitVec.and_assoc]
  out := by rw [k.out, h.out, h.frame.params]; simp [bitsTrace]
  wave := by
    rw [k.wave, h.wave, h.frame.params, h.frame.ie, h.draws, bitsWave_append, List.append_assoc]
  draws := by rw [k.draws, h.draws]; simp [Nat.add_assoc]

end Sys2Proof.Safety

namespace Sys2Proof.Machine

open Sys2Proof.Safety

/-! ### One bit -/

theorem readLine_congr {s t : State} (hc : t.cfg = s.cfg) (hp : t.params = s.params) :
    readLine t = readLine s := by
  rw [readLine, readLine, readCfg, readCfg, hc, hp]

/-- Sending bits keeps the engine ready. -/
theorem ready_of_frame {l : Line} {s t : State} (h : Ready l s) (f : EngineFrame s t)
    (w : Memory.wf t.port = true) : Ready l t :=
  ⟨by rw [readLine_congr f.cfg f.params, h.line], w⟩

theorem bit0On_sent (l : Line) (s : State) (h : Memory.wf s.port = true) :
    Sent l [false] s (bit0On l s) where
  frame := by constructor <;> simp [bit0On]
  port := fun g => by
    simp only [bit0On, portReg_eq, recordSymbol_port, advance_port, maskExit_port, wait_port,
      setLow_port, setHigh_port, maskEnter_port]
    rw [read_pulse h l g]
    by_cases hg : g = l.group <;> simp [hg]
  out := by simp [bit0On, bitsTrace, symbolTrace]
  wave := by simp [bit0On, bitsWave]
  draws := by simp [bit0On]

theorem bit1On_sent (l : Line) (s : State) (h : Memory.wf s.port = true) :
    Sent l [true] s (bit1On l s) where
  frame := by constructor <;> simp [bit1On]
  port := fun g => by
    simp only [bit1On, portReg_eq, recordSymbol_port, advance_port, wait_port, setLow_port,
      setHigh_port]
    rw [read_pulse h l g]
    by_cases hg : g = l.group <;> simp [hg]
  out := by simp [bit1On, bitsTrace, symbolTrace]
  wave := by simp [bit1On, bitsWave]
  draws := by simp [bit1On]

theorem bit0On_portWf (l : Line) (s : State) (h : Memory.wf s.port = true) :
    Memory.wf (bit0On l s).port = true := by
  simp only [bit0On, recordSymbol_port, advance_port, maskExit_port, wait_port, setLow_port,
    setHigh_port, maskEnter_port]
  exact Memory.write_wf _ _ (Memory.write_wf _ _ h)

theorem bit1On_portWf (l : Line) (s : State) (h : Memory.wf s.port = true) :
    Memory.wf (bit1On l s).port = true := by
  simp only [bit1On, recordSymbol_port, advance_port, wait_port, setLow_port, setHigh_port]
  exact Memory.write_wf _ _ (Memory.write_wf _ _ h)

@[simp] theorem bit0On_cursor (l : Line) (s : State) :
    (bit0On l s).cursor = s.cursor.next := by simp [bit0On]

@[simp] theorem bit1On_cursor (l : Line) (s : State) :
    (bit1On l s).cursor = s.cursor.next := by simp [bit1On]

@[simp] theorem bit0On_busy (l : Line) (s : State) : (bit0On l s).busy = s.busy := by simp [bit0On]

@[simp] theorem bit1On_busy (l : Line) (s : State) : (bit1On l s).busy = s.busy := by simp [bit1On]

/-- What a completed bit operation leaves: the symbol sent, the cursor one further (R31), the engine
still ready, `busy` as it was. -/
structure BitsDone (l : Line) (bs : List Bool) (s t : State) : Prop where
  sent : Sent l bs s t
  ready : Ready l t
  busy : t.busy = s.busy
  cursor : t.cursor = Cursor.next^[bs.length] s.cursor

theorem BitsDone.trans {l : Line} {bs cs : List Bool} {s t u : State} (h : BitsDone l bs s t)
    (k : BitsDone l cs t u) : BitsDone l (bs ++ cs) s u where
  sent := h.sent.trans k.sent
  ready := k.ready
  busy := k.busy.trans h.busy
  cursor := by
    rw [k.cursor, h.cursor, ← Function.iterate_add_apply, List.length_append, Nat.add_comm]

/-- A bit operation on a ready engine completes. -/
theorem sendBit_done {l : Line} {s : State} (b : Bool) (h : Ready l s) :
    ∃ t, sendBit b s = .ok t ∧ BitsDone l [b] s t := by
  cases b
  · have hs := bit0On_sent l s h.portWf
    exact ⟨bit0On l s, by simp [sendBit, sendBit0, h.line],
      hs, ready_of_frame h hs.frame (bit0On_portWf l s h.portWf), by simp, by simp⟩
  · have hs := bit1On_sent l s h.portWf
    exact ⟨bit1On l s, by simp [sendBit, sendBit1, h.line],
      hs, ready_of_frame h hs.frame (bit1On_portWf l s h.portWf), by simp, by simp⟩

/-! ### Sequences of bits -/

theorem sendBits_done {l : Line} (bs : List Bool) {s : State} (h : Ready l s) :
    ∃ t, sendBits bs s = .ok t ∧ BitsDone l bs s t := by
  induction bs generalizing s with
  | nil => exact ⟨s, rfl, Sent.refl l s, h, rfl, rfl⟩
  | cons b bs ih =>
    obtain ⟨t, ht, dt⟩ := sendBit_done b h
    obtain ⟨u, hu, du⟩ := ih dt.ready
    exact ⟨u, by simp [sendBits, ht, hu], by simpa using dt.trans du⟩

theorem sendBits_append (bs cs : List Bool) (s : State) :
    sendBits (bs ++ cs) s =
      match sendBits bs s with
      | .error f => .error f
      | .ok t => sendBits cs t := by
  induction bs generalizing s with
  | nil => rfl
  | cons b bs ih =>
    simp only [List.cons_append, sendBits]
    cases sendBit b s with
    | error f => rfl
    | ok t => exact ih t

/-- Sending a pixel is sending its 24 bits (R143). -/
theorem sendPixel_eq {i : Nat} {px : Pixel} {s : State} (h : s.buf[i]? = some px) :
    sendPixel i s = sendBits (pixelBits px) s := by
  simp only [sendPixel, readPixel, h, pixelBits, sendBits_append, sendByte]
  cases sendBits (byteBits px.g) s with
  | error f => rfl
  | ok t => cases sendBits (byteBits px.r) t <;> rfl

theorem sendPixel_done {l : Line} {i : Nat} {px : Pixel} {s : State} (h : Ready l s)
    (hi : s.buf[i]? = some px) :
    ∃ t, sendPixel i s = .ok t ∧ BitsDone l (pixelBits px) s t := by
  rw [sendPixel_eq hi]; exact sendBits_done _ h

/-- Sending the rest of the buffer from pixel `i` on is sending those pixels' bits (R145). -/
theorem sendPixels_done {l : Line} (n i : Nat) {s : State} (h : Ready l s)
    (hn : i + n = s.buf.length) :
    ∃ t, sendPixels n i s = .ok t ∧ BitsDone l (frameBits (s.buf.drop i)) s t := by
  induction n generalizing i s with
  | zero =>
    rw [List.drop_eq_nil_of_le (by omega)]
    exact ⟨s, rfl, Sent.refl l s, h, rfl, rfl⟩
  | succ n ih =>
    have hi : i < s.buf.length := by omega
    obtain ⟨t, ht, dt⟩ := sendPixel_done h (List.getElem?_eq_getElem hi)
    have hb : t.buf = s.buf := dt.sent.frame.buf
    obtain ⟨u, hu, du⟩ := ih (i + 1) dt.ready (by rw [hb]; omega)
    refine ⟨u, by simp [sendPixels, ht, hu], ?_⟩
    rw [List.drop_eq_getElem_cons hi]
    rw [hb] at du
    exact dt.trans du

/-! ### A frame -/

/-- A pin resolves to an existing group and a bit of a byte (R7). -/
theorem pinMap_wf {s : State} {pin : Byte} {g : PortGroup} {k : Nat}
    (h : pinMap s.params pin = some (g, k)) : g ∈ s.params.portGroups ∧ k < 8 := by
  simp only [pinMap, Option.map_eq_some_iff, Prod.mk.injEq] at h
  obtain ⟨r, hr, rfl, rfl⟩ := h
  have hm := List.mem_of_find?_eq_some hr
  have hp := s.params_wf
  simp only [Config.Params.wf, Bool.and_eq_true, List.all_eq_true, decide_eq_true_eq] at hp
  have h1 := hp.1.1.1.2 r hm
  have h2 := hp.1.1.1.1.2
  exact ⟨h1.2, by omega⟩

/-- A live block drives the line of its configuration. -/
theorem live_readLine {s : State} {c : DeviceConfig} {k : Nat} (h : Live s c k) :
    readLine s = .ok ⟨c.portSel, c.pinMask⟩ := by
  have hg : groupExists s.params c.portSel = true := by
    simpa [groupExists] using (pinMap_wf h.resolves).1
  simp [readLine, readCfg, h.cfg, hg]

/-- A frame on a live block completes: the whole buffer's bits, `busy` 0 again, the cursor at
`24 * N` (R31, R144, R145). -/
theorem sendFrame_done {s : State} {c : DeviceConfig} {k : Nat} (hl : Live s c k)
    (hw : Memory.wf s.port = true) :
    ∃ t, sendFrame s = .ok t ∧ Sent ⟨c.portSel, c.pinMask⟩ (frameBits s.buf) s t ∧
      t.busy = false ∧ t.cursor = Cursor.next^[24 * c.pixelCount.toNat] Cursor.start ∧
      Memory.wf t.port = true := by
  have hr : Ready ⟨c.portSel, c.pinMask⟩ (startFrame s) :=
    ⟨(readLine_congr (s := s) (t := startFrame s) rfl rfl).trans (live_readLine hl), hw⟩
  obtain ⟨t, ht, dt⟩ := sendPixels_done c.pixelCount.toNat 0 hr
    (by simpa using hl.bufLength.symm)
  have hlen : (frameBits s.buf).length = 24 * c.pixelCount.toNat := by
    rw [← hl.bufLength, frameBits, List.length_flatMap]
    simp [pixelBits, byteBits, Nat.mul_comm]
  simp only [List.drop_zero, startFrame_buf] at dt
  have d := dt.sent
  refine ⟨endFrame t, by simp [sendFrame, readCfg, hl.cfg, ht], ?_, rfl, ?_, dt.ready.portWf⟩
  · exact ⟨⟨d.frame.config, d.frame.attached, d.frame.dirty, d.frame.lastTx, d.frame.cfg,
      d.frame.buf, d.frame.dir, d.frame.ie, d.frame.time, d.frame.attachResult, d.frame.inputs⟩,
      d.port, d.out, d.wave, d.draws⟩
  · rw [endFrame_cursor, ← hlen]; exact dt.cursor

end Sys2Proof.Machine
end

