-- ==== Sys2Proof/Laws/Commands.lean ====
section
/-! SUPPORT. What each command can do, once each: the inversion lemmas later proofs cite instead of
unfolding a meaning. -/

namespace Sys2Proof.Machine

open Sys2Proof.Safety

theorem toOutcome_next {r : Except Fault State} {t : State} :
    toOutcome r = .next t ↔ r = .ok t := by
  cases r <;> simp [toOutcome]

/-! ### The engine, from any state -/

/-- What running the engine can do, from any state: the frame, whole symbols appended to the trace,
the register file still canonical, one register changed in the line's bits only. -/
structure EngineRan (s t : State) : Prop where
  frame : EngineFrame s t
  out : ∃ l bs, t.out = s.out ++ bitsTrace s.params l bs
  portWf : Memory.wf s.port = true → Memory.wf t.port = true
  otherBits : Memory.wf s.port = true → ∀ g, portReg g t = portReg g s ∨
    ∃ c, s.cfg = .valid c ∧ g = c.portSel ∧
      portReg g t &&& ~~~c.pinMask = portReg g s &&& ~~~c.pinMask

theorem EngineRan.refl (s : State) : EngineRan s s :=
  ⟨EngineFrame.refl s, ⟨⟨0, 0⟩, [], by simp [bitsTrace]⟩, id, fun _ _ => .inl rfl⟩

/-- The configured line is the one the engine reads. -/
theorem readLine_ok {s : State} {l : Line} (h : readLine s = .ok l) :
    ∃ c, s.cfg = .valid c ∧ l = ⟨c.portSel, c.pinMask⟩ ∧ c.portSel ∈ s.params.portGroups := by
  unfold readLine readCfg at h
  cases hc : s.cfg with
  | invalid => simp [hc] at h
  | valid c =>
    simp only [hc] at h
    split at h
    · rename_i hg
      exact ⟨c, rfl, by simpa using h.symm, by simpa [groupExists] using hg⟩
    · simp at h

theorem readLine_valid {s : State} {c : DeviceConfig} (hc : s.cfg = .valid c)
    (hg : c.portSel ∈ s.params.portGroups) : readLine s = .ok ⟨c.portSel, c.pinMask⟩ := by
  simp [readLine, readCfg, hc, groupExists, hg]

/-- Sending one bit: the line is readable and the body ran. -/
theorem sendBit_ok {b : Bool} {s t : State} (h : sendBit b s = .ok t) :
    ∃ l, readLine s = .ok l ∧ t = if b then bit1On l s else bit0On l s := by
  cases b <;> simp only [sendBit, sendBit0, sendBit1] at h <;>
    (cases hl : readLine s with
     | error f => simp [hl] at h
     | ok l => exact ⟨l, rfl, by simpa [hl] using h.symm⟩)

theorem bitOn_frame (b : Bool) (l : Line) (s : State) :
    EngineFrame s (if b then bit1On l s else bit0On l s) := by
  cases b <;> constructor <;> simp [bit0On, bit1On]

theorem bitOn_out (b : Bool) (l : Line) (s : State) :
    (if b then bit1On l s else bit0On l s).out = s.out ++ bitsTrace s.params l [b] := by
  cases b <;> simp [bit0On, bit1On, bitsTrace, symbolTrace]

/-- What sending bits can do, from any state. -/
theorem sendBits_ok {bs : List Bool} {s t : State} (h : sendBits bs s = .ok t) :
    EngineRan s t ∧ t.busy = s.busy := by
  cases bs with
  | nil => simp only [sendBits, Except.ok.injEq] at h; subst h; exact ⟨EngineRan.refl s, rfl⟩
  | cons b bs =>
    have hl : ∃ l, readLine s = .ok l := by
      simp only [sendBits] at h
      cases hb : sendBit b s with
      | error f => simp [hb] at h
      | ok u => obtain ⟨l, hl, -⟩ := sendBit_ok hb; exact ⟨l, hl⟩
    obtain ⟨l, hl⟩ := hl
    have gen : ∀ cs (u : State), readLine u = .ok l → sendBits cs u = .ok t →
        EngineFrame u t ∧ t.busy = u.busy ∧ t.out = u.out ++ bitsTrace u.params l cs := by
      intro cs
      induction cs with
      | nil =>
        intro u _ hu
        simp only [sendBits, Except.ok.injEq] at hu; subst hu
        exact ⟨EngineFrame.refl _, rfl, by simp [bitsTrace]⟩
      | cons c cs ih =>
        intro u hlu hu
        simp only [sendBits] at hu
        cases hb : sendBit c u with
        | error f => simp [hb] at hu
        | ok v =>
          simp only [hb] at hu
          obtain ⟨l', hl', rfl⟩ := sendBit_ok hb
          obtain rfl : l' = l := by rw [hlu] at hl'; simpa using hl'.symm
          have f := bitOn_frame c l' u
          obtain ⟨f2, b2, o2⟩ := ih _ (by rw [readLine_congr f.cfg f.params]; exact hlu) hu
          refine ⟨f.trans f2, b2.trans (by cases c <;> simp), ?_⟩
          rw [o2, bitOn_out, f.params]
          simp [bitsTrace]
    obtain ⟨f, hbusy, hout⟩ := gen (b :: bs) s hl h
    refine ⟨⟨f, ⟨l, b :: bs, hout⟩, ?_, ?_⟩, hbusy⟩
    · intro hw
      obtain ⟨u, hu, du⟩ := sendBits_done (b :: bs) ⟨hl, hw⟩
      obtain rfl : u = t := by rw [h] at hu; simpa using hu.symm
      exact du.ready.portWf
    · intro hw g
      obtain ⟨u, hu, du⟩ := sendBits_done (b :: bs) ⟨hl, hw⟩
      obtain rfl : u = t := by rw [h] at hu; simpa using hu.symm
      obtain ⟨c, hc, rfl, -⟩ := readLine_ok hl
      rw [du.sent.port g]
      by_cases hg : g = c.portSel
      · exact .inr ⟨c, hc, hg, by simp [hg, BitVec.and_assoc]⟩
      · exact .inl (by simp [hg])

theorem sendPixel_ok {i : Nat} {s t : State} (h : sendPixel i s = .ok t) :
    ∃ px, s.buf[i]? = some px ∧ sendBits (pixelBits px) s = .ok t := by
  cases hi : s.buf[i]? with
  | none => simp [sendPixel, readPixel, hi] at h
  | some px => exact ⟨px, rfl, by rw [← sendPixel_eq hi]; exact h⟩

/-- Sending pixels is sending some bits. -/
theorem sendPixels_ok {n i : Nat} {s t : State} (h : sendPixels n i s = .ok t) :
    ∃ bs, sendBits bs s = .ok t := by
  induction n generalizing i s with
  | zero => exact ⟨[], h⟩
  | succ n ih =>
    simp only [sendPixels] at h
    cases hp : sendPixel i s with
    | error f => simp [hp] at h
    | ok u =>
      simp only [hp] at h
      obtain ⟨px, -, hu⟩ := sendPixel_ok hp
      obtain ⟨bs, hb⟩ := ih h
      exact ⟨pixelBits px ++ bs, by rw [sendBits_append, hu]; exact hb⟩

/-- What a frame can do, from any state. -/
theorem sendFrame_ok {s t : State} (h : sendFrame s = .ok t) :
    EngineRan s t ∧ t.busy = false := by
  unfold sendFrame at h
  cases hc : readCfg s with
  | error f => simp [hc] at h
  | ok c =>
    simp only [hc] at h
    cases hp : sendPixels c.pixelCount.toNat 0 (startFrame s) with
    | error f => simp [hp] at h
    | ok u =>
      simp only [hp, Except.ok.injEq] at h
      subst h
      obtain ⟨bs, hb⟩ := sendPixels_ok hp
      obtain ⟨r, -⟩ := sendBits_ok hb
      exact ⟨⟨⟨r.frame.config, r.frame.attached, r.frame.dirty, r.frame.lastTx, r.frame.cfg,
        r.frame.buf, r.frame.dir, r.frame.ie, r.frame.time, r.frame.attachResult,
        r.frame.inputs⟩, r.out, r.portWf, r.otherBits⟩, rfl⟩

/-- A micro-operation does what the engine can do. -/
theorem execMicro_next {i : Instr} {s t : State}
    (hi : i = .sendFrame ∨ (∃ k, i = .sendPixel k) ∨ (∃ v, i = .sendByte v) ∨
      i = .sendBit0 ∨ i = .sendBit1) (h : exec i s = .next t) :
    EngineRan s t ∧ (t.busy = s.busy ∨ t.busy = false) := by
  rcases hi with rfl | ⟨k, rfl⟩ | ⟨v, rfl⟩ | rfl | rfl
  · obtain ⟨r, b⟩ := sendFrame_ok (toOutcome_next.mp h)
    exact ⟨r, .inr b⟩
  · obtain ⟨px, -, hb⟩ := sendPixel_ok (toOutcome_next.mp h)
    exact (sendBits_ok hb).imp id .inl
  · exact (sendBits_ok (toOutcome_next.mp h)).imp id .inl
  · have : sendBits [false] s = .ok t := by
      simp only [sendBits, sendBit, Bool.false_eq_true, if_false]
      rw [toOutcome_next.mp h]
    exact (sendBits_ok this).imp id .inl
  · have : sendBits [true] s = .ok t := by
      simp only [sendBits, sendBit, if_true]
      rw [toOutcome_next.mp h]
    exact (sendBits_ok this).imp id .inl

/-! ### The scheduler -/

/-- What a show can do: nothing, or one frame and then the timestamp and `dirty`. -/
theorem requestShow_next {now d : Stamp} {s t : State} (h : exec (.requestShow now d) s = .next t) :
    (t = s ∧ (s.attached = false ∨ resetGapOk now s = false)) ∨
      (s.attached = true ∧ resetGapOk now s = true ∧
        ∃ u, sendFrame s = .ok u ∧ t = frameShown d u) := by
  have h := toOutcome_next.mp h
  unfold requestShow at h
  split at h
  · rename_i ha; exact .inl ⟨by simpa using h.symm, .inl ha⟩
  · split at h
    · rename_i hg; exact .inl ⟨by simpa using h.symm, .inr hg⟩
    · rename_i ha hg
      cases hf : sendFrame s with
      | error f => simp [hf] at h
      | ok u => exact .inr ⟨by simpa using ha, by simpa using hg, u, rfl, by simpa [hf] using h.symm⟩

/-- What a tick can do: nothing, or what a show can do. -/
theorem update_next {now d : Stamp} {s t : State} (h : exec (.update now d) s = .next t) :
    (t = s ∧ (s.attached = false ∨ s.dirty = false ∨ refreshOk now s = false)) ∨
      (s.attached = true ∧ s.dirty = true ∧ refreshOk now s = true ∧
        exec (.requestShow now d) s = .next t) := by
  have h := toOutcome_next.mp h
  unfold updateTick at h
  split at h
  · rename_i ha; exact .inl ⟨by simpa using h.symm, .inl ha⟩
  · split at h
    · rename_i hd; exact .inl ⟨by simpa using h.symm, .inr (.inl hd)⟩
    · split at h
      · rename_i hr; exact .inl ⟨by simpa using h.symm, .inr (.inr hr)⟩
      · rename_i ha hd hr
        exact .inr ⟨by simpa using ha, by simpa using hd, by simpa using hr,
          toOutcome_next.mpr h⟩

theorem resetGapOk_iff {now : Stamp} {s : State} : resetGapOk now s = true ↔
    s.params.resetIntervalUs ≤ elapsed s.params.tsWidth now s.lastTx := by
  simp [resetGapOk]

theorem refreshOk_iff {now : Stamp} {s : State} : refreshOk now s = true ↔
    s.params.refreshIntervalUs ≤ elapsed s.params.tsWidth now s.lastTx := by
  simp [refreshOk]

/-- A show that passes its gate is a frame and then the timestamp and `dirty`. -/
theorem requestShow_eq {now d : Stamp} {s u : State} (ha : s.attached = true)
    (hg : resetGapOk now s = true) (hf : sendFrame s = .ok u) :
    exec (.requestShow now d) s = .next (frameShown d u) := by
  simp [exec, execRequestShow, requestShow, ha, hg, hf, toOutcome]

/-! ### The buffer command -/

/-- The state a patch leaves. -/
def patchOutcome (c : DeviceConfig) (p : List Byte) (s : State) : State :=
  if anyOutOfRange c.pixelCount.toNat (quads s.params p)
  then raiseErr .outOfRangeIndex (patched c.pixelCount.toNat (quads s.params p) s)
  else patched c.pixelCount.toNat (quads s.params p) s

/-- A payload has a length byte exactly when it reaches past `PATCH_LEN_OFFSET`. -/
theorem patchLen_none {P : Config.Params} {p : List Byte} :
    patchLen P p = none ↔ p.length ≤ P.patchLenOffset := by
  simp [patchLen]

theorem patchLen_some {P : Config.Params} {p : List Byte} (h : P.patchLenOffset < p.length) :
    patchLen P p = some p[P.patchLenOffset] := List.getElem?_eq_getElem h

/-- What a patch can do: nothing, or the quadruples, `dirty`, and at most one report. -/
theorem writePatch_next {p : List Byte} {s t : State} (h : exec (.writePatch p) s = .next t) :
    (t = s ∧ (s.attached = false ∨ p.length ≤ s.params.patchLenOffset)) ∨
      (s.attached = true ∧ s.params.patchLenOffset < p.length ∧ ∃ c, s.cfg = .valid c ∧
        t = patchOutcome c p s) := by
  have h := toOutcome_next.mp h
  unfold writePatch at h
  split at h
  · rename_i ha; exact .inl ⟨by simpa using h.symm, .inl ha⟩
  · rename_i ha
    split at h
    · rename_i hp; exact .inl ⟨by simpa using h.symm, .inr (patchLen_none.mp hp)⟩
    · rename_i hp
      have hlen : s.params.patchLenOffset < p.length := by
        by_contra hn
        rw [patchLen_none.mpr (Nat.not_lt.mp hn)] at hp
        simp at hp
      cases hc : s.cfg with
      | invalid => simp [readCfg, hc] at h
      | valid c =>
        exact .inr ⟨by simpa using ha, hlen, c, rfl,
          by simpa [readCfg, hc, patchOutcome] using h.symm⟩

/-- A patch with a length byte on an attached, configured block completes. -/
theorem writePatch_eq {p : List Byte} {s : State} {c : DeviceConfig} (ha : s.attached = true)
    (hp : s.params.patchLenOffset < p.length) (hc : s.cfg = .valid c) :
    exec (.writePatch p) s = .next (patchOutcome c p s) := by
  simp [exec, execWritePatch, writePatch, ha, patchLen_some hp, readCfg, hc, toOutcome,
    patchOutcome]

theorem applyQuad_length (n : Nat) (q : Quad) (buf : List Pixel) :
    (applyQuad n q buf).length = buf.length := by
  unfold applyQuad; split <;> simp

/-- A patch never changes the number of pixels. -/
theorem applyQuads_length (n : Nat) (qs : List Quad) (buf : List Pixel) :
    (applyQuads n qs buf).length = buf.length := by
  induction qs generalizing buf with
  | nil => rfl
  | cons q qs ih => rw [applyQuads, ih, applyQuad_length]

/-! ### Attachment -/

/-- The payload of an attachment: the right length, and the two fields in front. -/
theorem attachFields_some {P : Config.Params} {p : List Byte} {pin n : Byte} :
    attachFields P p = some (pin, n) ↔
      p.length = P.attachLen ∧ p[0]? = some pin ∧ p[1]? = some n := by
  unfold attachFields
  split
  · rename_i hl
    match p, hl with
    | [], hl => simp
    | [_], hl => simp
    | a :: b :: rest, hl => simp only [hl, List.getElem?_cons_zero, List.getElem?_cons_succ]; simp
  · rename_i hl; simp [hl]

theorem attachFields_none {P : Config.Params} {p : List Byte} :
    attachFields P p = none ↔ p.length ≠ P.attachLen ∨ p.length < 2 := by
  unfold attachFields
  split
  · rename_i hl
    match p, hl with
    | [], hl => simp
    | [_], hl => simp
    | _ :: _ :: _, hl => simp at hl; simp [hl]; omega
  · rename_i hl; simp [hl]

theorem released_params (s : State) :
    (if s.attached then release s else s).params = s.params := by split <;> rfl

/-- What ATTACH can do, after releasing: a failure report of one of two kinds, or an attachment. -/
theorem attach_next {p : List Byte} {s t : State} (h : exec (.attach p) s = .next t) :
    ∃ s0, s0 = (if s.attached then release s else s) ∧
      ((attachFields s.params p = none ∧ t = attachFails .invalidConfiguration s0) ∨
        (∃ pin n, attachFields s.params p = some (pin, n) ∧ pinMap s.params pin = none ∧
          t = attachFails .unsupportedPlatform s0) ∨
        (∃ pin n g k, attachFields s.params p = some (pin, n) ∧
          pinMap s.params pin = some (g, k) ∧ t = attachTo pin n g k s0)) := by
  refine ⟨_, rfl, ?_⟩
  have h : attach p s = t := by simpa [exec, execAttach, toOutcome] using h
  unfold attach at h
  simp only [released_params] at h
  cases hf : attachFields s.params p with
  | none => exact .inl ⟨rfl, by simpa [hf] using h.symm⟩
  | some f =>
    obtain ⟨pin, n⟩ := f
    simp only [hf] at h
    cases hm : pinMap s.params pin with
    | none => exact .inr (.inl ⟨pin, n, rfl, hm, by simpa [hm] using h.symm⟩)
    | some gk =>
      obtain ⟨g, k⟩ := gk
      exact .inr (.inr ⟨pin, n, g, k, rfl, hm, by simpa [hm] using h.symm⟩)

/-- DETACH always completes. -/
theorem detach_next {s t : State} (h : exec .detach s = .next t) :
    t = if s.attached then release s else s := by
  simpa [exec, execDetach, toOutcome, detach] using h.symm

/-! ### Any operation -/

/-- What an operation can do, said once for all ten: nothing; run the engine; show a frame; patch the
buffer; fail to attach; attach; release. `s0` is the state an ATTACH works on. -/
inductive Ran (i : Instr) (s t : State) : Prop where
  | same (h : t = s)
  | engine (r : EngineRan s t) (b : t.busy = s.busy ∨ t.busy = false)
      (hi : (∀ p, i ≠ .attach p) ∧ (∀ p, i ≠ .writePatch p) ∧ i ≠ .detach)
  | shown (u : State) (d : Stamp) (r : EngineRan s u) (b : u.busy = false)
      (h : t = frameShown d u)
      (hi : (∃ now, i = .requestShow now d) ∨ (∃ now, i = .update now d))
  | patch (p : List Byte) (c : DeviceConfig) (hi : i = .writePatch p) (ha : s.attached = true)
      (hc : s.cfg = .valid c)
      (h : t = patchOutcome c p s)
  | attachFailed (p : List Byte) (k : ErrKind) (s0 : State) (hi : i = .attach p)
      (h0 : s0 = s ∨ s0 = release s) (h : t = attachFails k s0)
  | attachDone (p : List Byte) (pin n : Byte) (g : PortGroup) (k : Nat) (s0 : State)
      (hi : i = .attach p) (hf : attachFields s.params p = some (pin, n))
      (h0 : s0 = s ∨ s0 = release s) (hm : pinMap s.params pin = some (g, k))
      (h : t = attachTo pin n g k s0)
  | released (hi : i = .detach) (h : t = release s)

theorem show_ran {i : Instr} {now d : Stamp} {s t : State}
    (hi : i = .requestShow now d ∨ i = .update now d)
    (h : exec (.requestShow now d) s = .next t) : Ran i s t := by
  rcases requestShow_next h with ⟨rfl, -⟩ | ⟨-, -, u, hu, rfl⟩
  · exact .same rfl
  · obtain ⟨r, b⟩ := sendFrame_ok hu
    exact .shown u d r b rfl (hi.imp (fun h => ⟨now, h⟩) (fun h => ⟨now, h⟩))

theorem exec_ran {i : Instr} {s t : State} (h : exec i s = .next t) : Ran i s t := by
  cases i with
  | attach p =>
    obtain ⟨s0, hs0, hh⟩ := attach_next h
    have h0 : s0 = s ∨ s0 = release s := by subst hs0; split <;> simp
    rcases hh with ⟨-, ht⟩ | ⟨_, _, -, -, ht⟩ | ⟨pin, n, g, k, hf, hm, ht⟩
    · exact .attachFailed p _ s0 rfl h0 ht
    · exact .attachFailed p _ s0 rfl h0 ht
    · exact .attachDone p pin n g k s0 rfl hf h0 hm ht
  | writePatch p =>
    rcases writePatch_next h with ⟨rfl, -⟩ | ⟨ha, -, c, hc, ht⟩
    · exact .same rfl
    · exact .patch p c rfl ha hc ht
  | requestShow now d => exact show_ran (.inl rfl) h
  | update now d =>
    rcases update_next h with ⟨rfl, -⟩ | ⟨-, -, -, h'⟩
    · exact .same rfl
    · exact show_ran (.inr rfl) h'
  | detach =>
    rw [detach_next h]
    split
    · exact .released rfl rfl
    · exact .same rfl
  | sendFrame => obtain ⟨r, b⟩ := execMicro_next (by simp) h; exact .engine r b (by simp)
  | sendPixel k => obtain ⟨r, b⟩ := execMicro_next (by simp) h; exact .engine r b (by simp)
  | sendByte v => obtain ⟨r, b⟩ := execMicro_next (by simp) h; exact .engine r b (by simp)
  | sendBit0 => obtain ⟨r, b⟩ := execMicro_next (by simp) h; exact .engine r b (by simp)
  | sendBit1 => obtain ⟨r, b⟩ := execMicro_next (by simp) h; exact .engine r b (by simp)

end Sys2Proof.Machine
end

