-- ==== Sys2Proof/Laws/Step.lean ====
section
/-! SUPPORT. What a step can do, said once: run a fetched instruction, end a frame, idle, or a platform
move; and what is in front of it. -/

namespace Sys2Proof.Machine

open Sys2Proof.Safety

/-- What a platform move can do: set `IE`, or write one port-group register outside the block's own
bits. -/
inductive PlatformMoved (s t : State) : Prop where
  | setIe (b : Bool) (h : t = { s with ie := b })
  | writePort (g : PortGroup) (v : Byte) (hk : keepsBits (ownMask g s) (portReg g s) v = true)
      (h : t = writePortReg g v s)
  | writeDir (g : PortGroup) (v : Byte) (hk : keepsBits (ownMask g s) (dirReg g s) v = true)
      (h : t = writeDirReg g v s)

theorem otherWritesPort_next {g : PortGroup} {v : Byte} {s t : State}
    (h : otherWritesPort g v s = .next t) : PlatformMoved s t := by
  unfold otherWritesPort at h
  split at h
  · simp at h
  · split at h
    · rename_i hk; exact .writePort g v hk (by simpa using h.symm)
    · simp at h

theorem otherWritesDir_next {g : PortGroup} {v : Byte} {s t : State}
    (h : otherWritesDir g v s = .next t) : PlatformMoved s t := by
  unfold otherWritesDir at h
  split at h
  · simp at h
  · split at h
    · rename_i hk; exact .writeDir g v hk (by simpa using h.symm)
    · simp at h

/-- What a step can do. -/
inductive Stepped (s t : State) : Prop where
  /-- In mid-frame: the symbol at the cursor. -/
  | bit (c : DeviceConfig) (b : Bool) (hb : s.busy = true) (hc : s.cfg = .valid c)
      (hk : s.cursor.linear < 24 * c.pixelCount.toNat) (h : exec (decodeSymbol b) s = .next t)
  /-- In mid-frame: the frame's end. -/
  | endOfFrame (hb : s.busy = true) (h : t = endFrame s)
  /-- Nothing to do. -/
  | idle (hb : s.busy = false) (h : t = s)
  /-- A presented command, decoded and run. -/
  | command (c : Command) (rest : List Input) (i : Instr) (hb : s.busy = false)
      (hd : decode s.params.tsWidth c = .ok i)
      (h : exec i { s with inputs := rest, time := toStamp s.params.tsWidth c.now } = .next t)
  /-- A platform move. -/
  | platform (rest : List Input) (hb : s.busy = false)
      (h : PlatformMoved { s with inputs := rest } t)

theorem step_next {s t : State} (h : step s = .next t) : Stepped s t := by
  unfold step fetch at h
  split at h
  · rename_i i u hf
    split at hf
    · rename_i hb
      unfold fetchBit at hf
      cases hc : s.cfg with
      | invalid => simp [readCfg, hc] at hf
      | valid c =>
        simp only [readCfg, hc] at hf
        split at hf
        · rename_i hk
          split at hf
          · simp at hf
          · simp only [Fetched.run.injEq] at hf
            obtain ⟨rfl, rfl⟩ := hf
            exact .bit c _ hb hc hk h
        · simp at hf
    · rename_i hb
      unfold fetchInput at hf
      split at hf <;> try simp at hf
      rename_i c rest hi
      unfold fetchCommand at hf
      dsimp only at hf
      split at hf
      · rename_i j hd
        simp only [Fetched.run.injEq] at hf
        obtain ⟨rfl, rfl⟩ := hf
        exact .command c rest j (by simpa using hb) hd h
      · simp at hf
  · rename_i o hf
    subst h
    split at hf
    · rename_i hb
      unfold fetchBit at hf
      cases hc : s.cfg with
      | invalid => simp [readCfg, hc] at hf
      | valid c =>
        simp only [readCfg, hc] at hf
        split at hf
        · split at hf <;> simp at hf
        · exact .endOfFrame hb (by simpa using hf.symm)
    · rename_i hb
      unfold fetchInput at hf
      split at hf
      · exact .idle (by simpa using hb) (by simpa using hf.symm)
      · rename_i c rest hi
        unfold fetchCommand at hf
        dsimp only at hf
        split at hf <;> simp at hf
      · rename_i b rest hi
        exact .platform rest (by simpa using hb) (.setIe b (by simpa [setIe] using hf.symm))
      · rename_i g v rest hi
        exact .platform rest (by simpa using hb) (otherWritesPort_next (by simpa using hf))
      · rename_i g v rest hi
        exact .platform rest (by simpa using hb) (otherWritesDir_next (by simpa using hf))

theorem decodeSymbol_micro (b : Bool) :
    decodeSymbol b = .sendFrame ∨ (∃ k, decodeSymbol b = .sendPixel k) ∨
      (∃ v, decodeSymbol b = .sendByte v) ∨ decodeSymbol b = .sendBit0 ∨
      decodeSymbol b = .sendBit1 := by
  cases b <;> simp [decodeSymbol]

/-- What the decoder can answer: a command, with time operands of the port's width. -/
theorem decode_ok {w : Nat} {c : Command} {i : Instr} (h : decode w c = .ok i) :
    i = .attach c.payload ∨ i = .writePatch c.payload ∨
      i = .requestShow (toStamp w c.now) (toStamp w c.tDone) ∨
      i = .update (toStamp w c.now) (toStamp w c.tDone) ∨ i = .detach := by
  unfold decode at h
  split at h <;> simp_all

end Sys2Proof.Machine
end

