-- ==== Sys2Proof/Laws/Invariant.lean ====
section
/-! SUPPORT. Carrying the invariant and a live block from one state to another, what a released block
looks like, the three outcomes of ATTACH as equations, and a run of the host's interface one step at
a time. -/

namespace Sys2Proof.Safety

open Sys2Proof.Machine

/-- A live block stays live when its parameters, configuration, direction registers and number of
pixels are kept. -/
theorem Live.of_eq {s t : State} {c : DeviceConfig} {k : Nat} (h : Live s c k)
    (hp : t.params = s.params) (hc : t.cfg = s.cfg) (hb : t.buf.length = s.buf.length)
    (hd : t.dir = s.dir) : Live t c k :=
  ⟨by rw [hc, h.cfg], by rw [hb, h.bufLength], by rw [hp, h.resolves], h.mask,
    by rw [dirReg, hd]; exact h.isOutput⟩

/-- The invariant depends on these fields only. -/
theorem BlockInv.of_eq {s t : State} (h : BlockInv s) (hp : t.params = s.params)
    (hport : t.port = s.port) (hdir : t.dir = s.dir) (hl : t.lastTx = s.lastTx)
    (ha : t.attached = s.attached) (hb : t.buf = s.buf) (hd : t.dirty = s.dirty)
    (hc : t.cfg = s.cfg) (hbusy : t.busy = s.busy) : BlockInv t where
  portWf := by rw [hport]; exact h.portWf
  dirWf := by rw [hdir]; exact h.dirWf
  lastTxWidth := by rw [hp, hl]; exact h.lastTxWidth
  unattached := by rw [ha, hb, hd, hl, hc]; exact h.unattached
  attached := by
    rw [ha]
    intro h'
    obtain ⟨c, k, hl⟩ := h.attached h'
    exact ⟨c, k, hl.of_eq hp hc (by rw [hb]) hdir⟩
  busyAttached := by rw [ha, hbusy]; exact h.busyAttached

/-- The block an ATTACH works on after its step 0 is unattached and otherwise as it was (R101,
R109). -/
theorem BlockInv.released {s r : State} (h : BlockInv s)
    (hr : r = if s.attached then release s else s) :
    r.attached = false ∧ r.buf = [] ∧ r.cfg = .invalid ∧ r.dirty = false ∧ r.lastTx = 0 ∧
      r.port = s.port ∧ r.dir = s.dir ∧ r.out = s.out ∧ r.params = s.params ∧
      r.busy = s.busy := by
  subst hr
  by_cases ha : s.attached
  · simp [ha]
  · have := h.unattached (by simpa using ha)
    simp [ha, this]

end Sys2Proof.Safety

namespace Sys2Proof.Machine

/-- ATTACH with a payload of the wrong length (R102). -/
theorem attach_badLength {s : State} {p : List Byte} (hp : attachFields s.params p = none) :
    exec (.attach p) s = .next
      (attachFails .invalidConfiguration (if s.attached then release s else s)) := by
  simp [exec, execAttach, attach, released_params, hp, toOutcome]

/-- ATTACH on a pin that does not resolve (R103). -/
theorem attach_noPin {s : State} {p : List Byte} {pin n : Byte}
    (hf : attachFields s.params p = some (pin, n)) (hp : pinMap s.params pin = none) :
    exec (.attach p) s = .next
      (attachFails .unsupportedPlatform (if s.attached then release s else s)) := by
  simp [exec, execAttach, attach, released_params, hf, hp, toOutcome]

/-- ATTACH that succeeds (R100). -/
theorem attach_done {s : State} {p : List Byte} {pin n : Byte} {g : PortGroup} {k : Nat}
    (hf : attachFields s.params p = some (pin, n)) (hp : pinMap s.params pin = some (g, k)) :
    exec (.attach p) s = .next
      (attachTo pin n g k (if s.attached then release s else s)) := by
  simp [exec, execAttach, attach, released_params, hf, hp, toOutcome]

/-- Two values of a register that pass the test of R225 agree on the bits of `own`. -/
theorem keepsBits_and {own a b : Byte} (h : keepsBits own a b = true) : b &&& own = a &&& own := by
  simp only [keepsBits, decide_eq_true_eq] at h
  have : ∀ i (hi : i < 8), ((a ^^^ b) &&& own)[i] = (0 : Byte)[i] := fun i hi => by rw [h]
  ext i hi
  have := this i hi
  simp at this ⊢
  revert this
  cases a[i] <;> cases b[i] <;> cases own[i] <;> simp

/-- The gate against time 0 (R161). -/
theorem elapsed_zero {w : Nat} {now : Stamp} (h : now < 2 ^ w) : elapsed w now 0 = now := by
  simp [elapsed]
  rw [Int.emod_eq_of_lt (by positivity) (by exact_mod_cast h)]
  simp

/-- The host's run, one step at a time. -/
theorem run_succ {n : Nat} {s t : State} (h : step s = .next t) :
    Sys2Proof.core.run (n + 1) s = Sys2Proof.core.run n t := by
  have h' : Sys2Proof.core.step s = .next t := h
  simp [Host.Core.run, h']

end Sys2Proof.Machine
end

