-- ==== Sys2Proof/Laws/PerInstr.lean ====
section
/-! SUPPORT. The per-instruction family `OnePort`: an instruction travels on one port only. -/

namespace Sys2Proof.Laws.OnePort

/-- A command's select is never a reserved code (R72, R86), and an instruction that the caller can
present puts no symbols of its own on the wire, whatever the buffer (R70, R81 to R84). -/
def Statement (i : Instr) : Prop :=
  ∀ c, encode i = some c →
    (c.op ≠ 0#3 ∧ c.op ≠ 6#3 ∧ c.op ≠ 7#3) ∧ ∀ buf, wireBits buf i = []

theorem attach (p : List Byte) : Statement (.attach p) := by
  intro c h; simp only [encode, Option.some.injEq] at h; subst h; simp [wireBits]

theorem writePatch (p : List Byte) : Statement (.writePatch p) := by
  intro c h; simp only [encode, Option.some.injEq] at h; subst h; simp [wireBits]

theorem requestShow (now tDone : Stamp) : Statement (.requestShow now tDone) := by
  intro c h; simp only [encode, Option.some.injEq] at h; subst h; simp [wireBits]

theorem update (now tDone : Stamp) : Statement (.update now tDone) := by
  intro c h; simp only [encode, Option.some.injEq] at h; subst h; simp [wireBits]

theorem detach : Statement .detach := by
  intro c h; simp only [encode, Option.some.injEq] at h; subst h; simp [wireBits]

theorem sendFrame : Statement .sendFrame := by intro c h; simp [encode] at h

theorem sendPixel (i : Byte) : Statement (.sendPixel i) := by intro c h; simp [encode] at h

theorem sendByte (v : Byte) : Statement (.sendByte v) := by intro c h; simp [encode] at h

theorem sendBit0 : Statement .sendBit0 := by intro c h; simp [encode] at h

theorem sendBit1 : Statement .sendBit1 := by intro c h; simp [encode] at h

end Sys2Proof.Laws.OnePort
end

