-- ==== Sys2Proof/Laws/Wire.lean ====
section
/-! SUPPORT. The wire formats and the patch payload as lists: lengths, appending, the byte round
trip. -/

namespace Sys2Proof

@[simp] theorem byteBits_length (v : Byte) : (byteBits v).length = 8 := rfl

@[simp] theorem pixelBits_length (px : Pixel) : (pixelBits px).length = 24 := rfl

@[simp] theorem frameBits_cons (px : Pixel) (buf : List Pixel) :
    frameBits (px :: buf) = pixelBits px ++ frameBits buf := by simp [frameBits]

/-- Eight symbols give back their byte (R141). -/
theorem byteOfBits_bits : ∀ v : Byte,
    byteOfBits (v.getLsbD 7) (v.getLsbD 6) (v.getLsbD 5) (v.getLsbD 4)
      (v.getLsbD 3) (v.getLsbD 2) (v.getLsbD 1) (v.getLsbD 0) = v := by decide

/-- Reading a byte off the front of a symbol stream. -/
theorem decodeBytes_append (v : Byte) (bs : List Bool) :
    decodeBytes (byteBits v ++ bs) = (decodeBytes bs).map (v :: ·) := by
  simp only [byteBits, decodeBytes, List.cons_append, List.nil_append, byteOfBits_bits]

end Sys2Proof

namespace Sys2Proof.Machine

theorem bitsTrace_cons (P : Config.Params) (l : Line) (b : Bool) (bs : List Bool) :
    bitsTrace P l (b :: bs) = symbolTrace P l b ++ bitsTrace P l bs := by simp [bitsTrace]

theorem bitsWave_length (P : Config.Params) (ie : Bool) (n : Nat) (bs : List Bool) :
    (bitsWave P ie n bs).length = 2 * bs.length := by
  induction bs generalizing n with
  | nil => rfl
  | cons b bs ih => simp [bitsWave, symbolWave, ih]; omega

/-- The advance of R31 in the linear form of R30; the bound keeps `cur_pix` inside its 8 bits. -/
theorem Cursor.next_linear (c : Cursor) (h : c.linear + 1 < 24 * 256) :
    c.next.linear = c.linear + 1 := by
  obtain ⟨pix, ch, bit⟩ := c
  have h1 := pix.isLt
  have h2 := bit.isLt
  unfold Cursor.next
  by_cases hb : bit = 0
  · subst hb
    cases ch <;> simp [Cursor.linear, channelNo, nextChannel] at *
    all_goals omega
  · have : 1 ≤ bit.toNat := by
      rcases Nat.eq_zero_or_pos bit.toNat with e | e
      · exact absurd (BitVec.eq_of_toNat_eq (by simpa using e)) hb
      · exact e
    have e : (bit - 1).toNat = bit.toNat - 1 := by bv_omega
    simp only [Cursor.linear]
    rw [if_neg hb]
    simp only [e]
    omega

/-- Whole groups are read back from their bytes. -/
theorem takeQuads_all (qs : List Quad) :
    takeQuads 4 qs.length (qs.flatMap quadBytes) = qs := by
  induction qs with
  | nil => rfl
  | cons q qs ih => simpa [quadBytes, takeQuads, quadAt] using ih

/-- No more quadruples than asked for. -/
theorem takeQuads_length_le (size n : Nat) (p : List Byte) :
    (takeQuads size n p).length ≤ n := by
  induction n generalizing p with
  | zero => simp [takeQuads]
  | succ n ih =>
    unfold takeQuads
    cases quadAt p with
    | none => simp
    | some q => simpa using ih (p.drop size)

/-- The payload of the line syntax carries its quadruples (R91, R79). -/
theorem quads_patchPayload {P : Config.Params} (hP : P.lineLayout = true) (qs : List Quad)
    (h : qs.length ≤ 63) : quads P (patchPayload qs) = qs := by
  simp only [Config.Params.lineLayout, Bool.and_eq_true, decide_eq_true_eq] at hP
  obtain ⟨⟨h1, h2⟩, h3⟩ := hP
  have hl : (qs.flatMap quadBytes).length = 4 * qs.length := by
    rw [List.length_flatMap]; simp [quadBytes, Nat.mul_comm]
  have hn : nQuads P (patchPayload qs) = qs.length := by
    simp only [nQuads, patchLen, h1, h2, h3, patchPayload]
    simp [hl]; omega
  rw [quads, hn, h2, h3]
  simp only [patchPayload]
  simpa using takeQuads_all qs

end Sys2Proof.Machine
end

