-- ==== Sys2Proof/Tests/Slice0.lean ====
section
/-! SUPPORT. Tests on fixed values, expected results from spec/95_test_vectors (each names its vector),
words written out from spec/30_encoding, and a witness for the hypotheses of every obligation. -/

namespace Sys2Proof.Tests

open Sys2Proof Sys2Proof.Machine Sys2Proof.Safety

/-! ### Small states -/

/-- The configuration of `ATTACH {pin=5, pixelCount=n}` (R100). -/
def cfg5 (n : Byte) : DeviceConfig := ⟨5, n, groupD, 0x20⟩

/-- An attached block on pin 5 with the listed pixels, dirty, never shown, `IE = 1`. -/
def blk (buf : List Pixel) : State :=
  { State.reset with
    attached := true, dirty := true, cfg := .valid (cfg5 (BitVec.ofNat 8 buf.length)), buf := buf
    dir := [(groupD, 0x20)] }

/-- Three black pixels (V40-1). -/
def blk3 : State := blk [black, black, black]

/-- One black pixel (start of V43-1). -/
def blk1 : State := blk [black]

/-- A next state that passes a check. -/
def nextIs (o : Host.Outcome State Fault Refusal) (p : State → Bool) : Bool :=
  match o with
  | .next t => p t
  | .fault _ => false
  | .refused _ => false

/-- The kinds of the error reports in a trace. -/
def errKinds : List Event → List Byte
  | [] => []
  | .err k _ :: es => k :: errKinds es
  | _ :: es => errKinds es

/-! ### Well-formed instructions -/

theorem test_wf_top_stamp : WellFormed 32 (.requestShow 0xFFFFFFFF 0xFFFFFFFF) = true := by decide
theorem test_wf_refuses_show_now : WellFormed 32 (.requestShow 0x100000000 0) = false := by decide
theorem test_wf_refuses_show_done : WellFormed 32 (.requestShow 0 0x100000000) = false := by decide
theorem test_wf_refuses_update_now : WellFormed 32 (.update 0x100000000 0) = false := by decide
theorem test_wf_refuses_update_done : WellFormed 32 (.update 0 0x100000000) = false := by decide

/-! ### Decoding: words written out from R72 to R80 and R81 to R83 -/

theorem test_decode_attach : decode 32 ⟨1, [5, 3], 0, 0⟩ = .ok (.attach [5, 3]) := by rfl
theorem test_decode_patch :
    decode 32 ⟨2, [0, 0, 8, 0, 255, 0, 0, 2, 0, 0, 255], 0, 0⟩ =
      .ok (.writePatch [0, 0, 8, 0, 255, 0, 0, 2, 0, 0, 255]) := by rfl
theorem test_decode_show :
    decode 32 ⟨3, [], 100000, 100090⟩ = .ok (.requestShow 100000 100090) := by rfl
/-- V30-3: the payload of a show is ignored. -/
theorem test_decode_show_payload :
    decode 32 ⟨3, [1, 2, 3], 7, 8⟩ = .ok (.requestShow 7 8) := by rfl
theorem test_decode_update : decode 32 ⟨4, [], 20000, 0⟩ = .ok (.update 20000 0) := by rfl
theorem test_decode_detach : decode 32 ⟨5, [9], 1, 2⟩ = .ok .detach := by rfl
/-- V30-1, V30-2. -/
theorem test_decode_reserved :
    decode 32 ⟨0, [], 0, 0⟩ = .error (.reservedSelect 0) ∧
    decode 32 ⟨6, [5, 3], 0, 0⟩ = .error (.reservedSelect 6) ∧
    decode 32 ⟨7, [], 0, 0⟩ = .error (.reservedSelect 7) := ⟨rfl, rfl, rfl⟩
/-- Format S (R83). -/
theorem test_decode_symbols : decodeSymbol false = .sendBit0 ∧ decodeSymbol true = .sendBit1 := by
  decide
/-- Format W8 of 0x80: bit 7 is first (V42-3b). -/
theorem test_decode_byte :
    decodeByteWord [true, false, false, false, false, false, false, false] =
      some (.sendByte 0x80) := by decide
/-- Format W24 of red only: the ones are in the second byte (V42-4b). -/
theorem test_wire_pixel :
    wireBits [⟨255, 0, 0⟩] (.sendPixel 0) =
      List.replicate 8 false ++ List.replicate 8 true ++ List.replicate 8 false := by decide
/-- Format FRAME of two pixels (V42-5), read back. -/
theorem test_wire_frame :
    decodeFrame (wireBits [⟨10, 20, 30⟩, black] .sendFrame) = some [⟨10, 20, 30⟩, black] := by
  decide
theorem test_encode_micro_none : encode .sendFrame = none ∧ encode (.sendByte 1) = none := by decide
theorem test_table_words :
    decodeTableWord 8 1 = some (.attach [0, 0]) ∧ decodeTableWord 8 2 = some (.writePatch [0, 0, 0]) ∧
    decodeTableWord 8 3 = some (.requestShow 0 0) ∧ decodeTableWord 8 4 = some (.update 0 0) ∧
    decodeTableWord 8 5 = some .detach ∧ decodeTableWord 8 0 = none := by decide

/-- A presented command runs as the first step after reset (R40, R100). -/
theorem test_first_step :
    nextIs (step (State.reset.withFetchWord 8 1)) (fun t =>
      t.attached && decide (t.cfg = .valid ⟨0, 0, groupD, 1⟩) && decide (t.inputs = [])) = true := by
  decide

/-! ### One step of each instruction -/

/-- V40-14: re-attachment, old direction bit kept. -/
theorem test_attach_again :
    nextIs (exec (.attach [6, 2]) (blk [black, ⟨9, 9, 9⟩, black])) (fun t =>
      decide (t.cfg = .valid ⟨6, 2, groupD, 0x40⟩) && decide (t.buf = [black, black]) &&
      t.dirty && decide (t.lastTx = 0) && decide (dirReg groupD t = 0x60) &&
      decide (t.out = [.dirOut groupD 0x40, .regNotify])) = true := by decide

/-- V40-7: the length is checked before the pin. -/
theorem test_attach_length_first :
    nextIs (exec (.attach [200, 3, 9, 9]) State.reset) (fun t =>
      decide (errKinds t.out = [1]) && !t.attached && decide (t.attachResult = .failure)) =
      true := by decide

/-- V40-16. -/
theorem test_detach :
    nextIs (exec .detach blk3) (fun t =>
      !t.attached && decide (t.buf = []) && !t.dirty && decide (dirReg groupD t = 0x20) &&
      decide (t.out = [])) = true := by decide

/-- V44-4: two bad quadruples, one report, the others applied. -/
theorem test_patch_out_of_range :
    nextIs (exec (.writePatch [0, 0, 16, 0, 1, 1, 1, 7, 2, 2, 2, 200, 3, 3, 3, 2, 4, 4, 4]) blk3)
      (fun t => decide (t.buf = [⟨1, 1, 1⟩, black, ⟨4, 4, 4⟩]) && decide (errKinds t.out = [3])) =
      true := by decide

/-- V44-7: a region cut short. -/
theorem test_patch_cut_short :
    nextIs (exec (.writePatch [0, 0, 8, 1, 10, 20, 30, 2, 9]) blk3)
      (fun t => decide (t.buf = [black, ⟨10, 20, 30⟩, black]) && decide (t.out = [])) = true := by
  decide

/-- V43-9: a show across the wrap of `TIME`. -/
theorem test_show_wrap :
    nextIs (exec (.requestShow 0x30 0x4E) { blk1 with lastTx := 0xFFFFFFF0 }) (fun t =>
      decide (t.lastTx = 0x4E) && !t.dirty && decide (bits t.out = List.replicate 24 false)) =
      true := by decide +kernel

/-- V43-3: 49 microseconds are too few. -/
theorem test_show_dropped :
    nextIs (exec (.requestShow 1079 0) { blk1 with lastTx := 1030, dirty := false }) (fun t =>
      decide (t.lastTx = 1030) && decide (t.out = [])) = true := by decide

/-- V43-5a. -/
theorem test_update_at_refresh :
    nextIs (exec (.update 33333 33363) blk1) (fun t =>
      decide (t.lastTx = 33363) && !t.dirty && decide (t.out.length = 144)) = true := by decide +kernel

/-- V43-13: the refresh gate passes and the reset gate does not. -/
theorem test_update_reset_gate :
    nextIs (exec (.update 1030 0)
      { blk1 with lastTx := 1000
                  config := ⟨{ ref16 with refreshIntervalUs := 20 }, by decide, by decide⟩ }) (fun t =>
      t.dirty && decide (t.lastTx = 1000) && decide (t.out = [])) = true := by decide

/-- V42-5: 272 events, 48 bits. -/
theorem test_frame :
    nextIs (exec .sendFrame (blk [⟨10, 20, 30⟩, black])) (fun t =>
      decide (t.out.length = 272) && !t.busy && decide (decodeFrame (bits t.out) =
        some [⟨10, 20, 30⟩, black])) = true := by decide +kernel

/-- V42-6. -/
theorem test_frame_empty :
    nextIs (exec .sendFrame (blk [])) (fun t => decide (t.out = []) && !t.busy) = true := by decide

/-- V42-4a. -/
theorem test_pixel :
    nextIs (exec (.sendPixel 0) (blk [⟨0x80, 0x01, 0xAA⟩])) (fun t =>
      decide (bits t.out =
        [false, false, false, false, false, false, false, true,
         true, false, false, false, false, false, false, false,
         true, false, true, false, true, false, true, false])) = true := by decide +kernel

/-- V42-1. -/
theorem test_byte :
    nextIs (exec (.sendByte 0xB0) blk1) (fun t =>
      decide (bits t.out = [true, false, true, true, false, false, false, false]) &&
      decide (t.out.length = 42)) = true := by decide +kernel

/-- V41-10 and the waveform's high phase. -/
theorem test_bit0 :
    nextIs (exec .sendBit0 blk1) (fun t =>
      decide (t.out = [.maskEnter, .pinHigh groupD 0x20, .wait 4, .pinLow groupD 0x20, .wait 12,
        .maskExit]) && t.ie && decide (t.wave[0]? = some ⟨true, 6⟩)) = true := by decide

/-- V41-11: `IE` is restored, not enabled. -/
theorem test_bit0_ie_off :
    nextIs (exec .sendBit0 { blk1 with ie := false }) (fun t =>
      !t.ie && decide (t.out.length = 6)) = true := by decide

/-- V41-13: other pins of the group are untouched. -/
theorem test_bit1 :
    nextIs (exec .sendBit1 { blk1 with port := [(groupD, 0xC3)] }) (fun t =>
      decide (portReg groupD t = 0xC3) && decide (t.out = [.pinHigh groupD 0x20, .wait 11,
        .pinLow groupD 0x20, .wait 5])) = true := by decide

/-- V41-8 and V41-9. -/
theorem test_delay_clamp :
    delay { ref16 with ovhT0h := 6 } .t0h = 0 ∧ width { ref16 with ovhT0h := 6 } .t0h = 6 ∧
    delay { ref16 with ovhT0h := 9 } .t0h = 0 ∧ width { ref16 with ovhT0h := 9 } .t0h = 9 := by
  decide

/-- R134: REF16 is inside the envelope; a clock of 1 MHz is not. -/
theorem test_envelope :
    inEnvelope ref16 = true ∧ inEnvelope { ref16 with clockHz := 1000000 } = false := by decide

/-- V41-15: the waits do not tell the bits apart. -/
theorem test_bits_by_mask :
    bits [.maskEnter, .pinHigh 68 1, .wait 0, .pinLow 68 1, .wait 0, .maskExit, .pinHigh 68 1,
      .wait 0, .pinLow 68 1, .wait 0] = [false, true] := by decide

/-- V44-19: FILL 1,2,3 with three pixels. -/
theorem test_fill : fill 3 ⟨1, 2, 3⟩ =
    [.writePatch [0, 0, 12, 0, 1, 2, 3, 1, 1, 2, 3, 2, 1, 2, 3]] := by decide

/-- V44-17: 63 quadruples in a region of 255 bytes. -/
theorem test_patch_capacity :
    nQuads ref16 ([0, 0, 255] ++ List.replicate 255 7) = 63 := by decide +kernel

/-! ### Witnesses: every hypothesis of every obligation is met somewhere -/

theorem reset_inv : BlockInv State.reset :=
  ⟨rfl, rfl, by decide, fun _ => ⟨rfl, rfl, rfl, rfl⟩,
    fun h => by simp [State.reset] at h, fun h => by simp [State.reset] at h⟩

/-- A block attached to pin 5 with at most 255 pixels is live. -/
theorem blk_live (buf : List Pixel) (h : buf.length ≤ 255) :
    Live (blk buf) (cfg5 (BitVec.ofNat 8 buf.length)) 5 := by
  refine ⟨rfl, ?_, rfl, rfl, ?_⟩
  · simp [blk, cfg5]
    omega
  · simp [dirReg, blk, cfg5, Memory.read]

theorem blk_inv (buf : List Pixel) (h : buf.length ≤ 255) : BlockInv (blk buf) :=
  ⟨rfl, rfl, reset_inv.lastTxWidth, fun h => by simp [blk] at h,
    fun _ => ⟨_, 5, blk_live buf h⟩, fun _ => rfl⟩

theorem blk3_live : Live blk3 (cfg5 3) 5 := blk_live _ (by decide)
theorem blk3_inv : BlockInv blk3 := blk_inv _ (by decide)
/-- The block with a command or a platform move presented. -/
def given (i : Input) (s : State) : State := { s with inputs := [i] }

theorem given_inv {s : State} (i : Input) (h : BlockInv s) : BlockInv (given i s) :=
  h.of_eq rfl rfl rfl rfl rfl rfl rfl rfl rfl

theorem given_live {s : State} {c : DeviceConfig} {k : Nat} (i : Input) (h : Live s c k) :
    Live (given i s) c k := h.of_eq rfl rfl rfl rfl

/-- The block in mid-frame at a given cursor. -/
def midFrame (cur : Cursor) : State := { blk3 with busy := true, cursor := cur }

theorem midFrame_inv (cur : Cursor) : BlockInv (midFrame cur) :=
  ⟨rfl, rfl, reset_inv.lastTxWidth,
    fun h => by simp [midFrame, blk3, blk] at h,
    fun _ => ⟨_, 5, blk3_live.of_eq rfl rfl rfl rfl⟩, fun _ => rfl⟩

theorem witness_StepKeepsBlockInvariant :
    BlockInv (given (.command ⟨2, [0, 0, 4, 1, 7, 8, 9], 0, 0⟩) blk3) ∧
    (∃ t, step (given (.command ⟨2, [0, 0, 4, 1, 7, 8, 9], 0, 0⟩) blk3) = .next t) :=
  ⟨given_inv _ blk3_inv, _, rfl⟩

theorem witness_StepKeepsCursorInsideFrame :
    BlockInv (midFrame ⟨2, .blue, 0⟩) ∧ CursorInFrame (midFrame ⟨2, .blue, 0⟩) ∧
    (∃ t, step (midFrame ⟨2, .blue, 0⟩) = .next t) := by
  refine ⟨midFrame_inv _, ?_, _, rfl⟩
  intro c _ h
  have : c = cfg5 3 := by
    have h' : DevCfg.valid (cfg5 3) = .valid c := h
    exact (DevCfg.valid.inj h').symm
  subst this
  decide

theorem witness_StepKeepsTraceDiscipline :
    TraceDisciplined (midFrame Cursor.start) ∧
    (∃ t, step (midFrame Cursor.start) = .next t) := ⟨⟨rfl, rfl⟩, _, rfl⟩

theorem witness_StepFixesParamsAndAppendsTrace :
    ∃ t, step (given (.command ⟨5, [], 0, 0⟩) blk3) = .next t := ⟨_, rfl⟩

theorem witness_PresentedCommandRunsDecoded :
    (given (.command ⟨1, [5, 3], 7, 0⟩) State.reset).busy = false ∧
    (given (.command ⟨1, [5, 3], 7, 0⟩) State.reset).inputs = .command ⟨1, [5, 3], 7, 0⟩ :: [] ∧
    decode State.reset.params.tsWidth ⟨1, [5, 3], 7, 0⟩ = .ok (.attach [5, 3]) :=
  ⟨rfl, rfl, rfl⟩

theorem witness_ReservedSelectHasNoStep :
    (given (.command ⟨7, [], 0, 0⟩) blk3).busy = false ∧
    (given (.command ⟨7, [], 0, 0⟩) blk3).inputs = .command ⟨7, [], 0, 0⟩ :: [] ∧
    ((7#3 = 0#3) ∨ (7#3 = 6#3) ∨ (7#3 = 7#3)) := by decide

theorem witness_DecodeEncodeAgree :
    WellFormed 32 (.update 0xFFFFFFFF 0) = true ∧
    encode (.update 0xFFFFFFFF 0) = some ⟨4, [], 0xFFFFFFFF, 0⟩ ∧
    decode 32 ⟨4, [1], 0x1FFFFFFFF, 0⟩ = .ok (.update 0xFFFFFFFF 0) := ⟨by decide, rfl, rfl⟩

/-- A write of another bit of the block's group, one that changes the block's bit, and a write of
another group. -/
theorem witness_OtherUsersKeepOffOwnPin :
    BlockInv (given (.writePort groupD 0xDF) blk3) ∧
    Live (given (.writePort groupD 0xDF) blk3) (cfg5 3) 5 ∧ blk3.attached = true ∧
    blk3.busy = false ∧ groupD ∈ blk3.params.portGroups ∧ groupB ∈ blk3.params.portGroups ∧
    ¬ ((portReg groupD blk3 ^^^ 0xDF) &&& (cfg5 3).pinMask ≠ 0) ∧
    ((portReg groupD blk3 ^^^ 0x20) &&& (cfg5 3).pinMask ≠ 0) ∧
    ¬ ((dirReg groupD blk3 ^^^ 0xFF) &&& (cfg5 3).pinMask ≠ 0) ∧
    ((dirReg groupD blk3 ^^^ 0x00) &&& (cfg5 3).pinMask ≠ 0) :=
  ⟨given_inv _ blk3_inv, given_live _ blk3_live, by decide⟩

/-- Both ends of a group's pins, and pin counts 0 and 255. -/
theorem witness_AttachSucceedsWithBlankBuffer :
    BlockInv State.reset ∧ pinMap State.reset.params 0 = some (groupD, 0) ∧
    pinMap State.reset.params 13 = some (groupB, 5) ∧ BlockInv blk3 ∧
    pinMap blk3.params 19 = some (groupC, 5) ∧
    ([0, 255] : List Byte).length = State.reset.params.attachLen ∧
    ([0, 255] : List Byte)[0]? = some 0 ∧ ([0, 255] : List Byte)[1]? = some 255 ∧
    ([19, 0] : List Byte).length = blk3.params.attachLen ∧
    ([19, 0] : List Byte)[0]? = some 19 ∧ ([19, 0] : List Byte)[1]? = some 0 :=
  ⟨reset_inv, rfl, rfl, blk3_inv, rfl, rfl, rfl, rfl, rfl, rfl, rfl⟩

/-- `ATTACH_LEN = 3`: the third byte is not read (R73, R74). -/
theorem test_attach_len_param :
    nextIs (exec (.attach [5, 3, 9])
      { State.reset with config := ⟨{ ref16 with attachLen := 3 }, by decide, by decide⟩ }) (fun t =>
      decide (t.cfg = .valid (cfg5 3)) && decide (t.buf = [black, black, black])) = true := by decide

/-- `PATCH_LEN_OFFSET = 0`, `PATCH_DATA_OFFSET = 2`, `QUAD_SIZE = 5`, by R79's formula. -/
theorem test_patch_layout_params :
    nextIs (exec (.writePatch [10, 77, 0, 1, 2, 3, 99, 2, 4, 5, 6, 99])
      { blk3 with config := ⟨{ ref16 with patchLenOffset := 0, patchDataOffset := 2, quadSize := 5 },
                             by decide, by decide⟩ }) (fun t =>
      decide (t.buf = [⟨1, 2, 3⟩, black, ⟨4, 5, 6⟩]) && decide (t.out = [])) = true := by decide

theorem witness_AttachWrongLengthFails :
    BlockInv blk3 ∧ ([] : List Byte).length ≠ blk3.params.attachLen ∧
    ([5] : List Byte).length ≠ blk3.params.attachLen ∧
    ([5, 3, 0] : List Byte).length ≠ blk3.params.attachLen :=
  ⟨blk3_inv, by decide⟩

theorem witness_AttachUnresolvablePinFails :
    BlockInv blk3 ∧ pinMap blk3.params 20 = none ∧ pinMap blk3.params 255 = none ∧
    ([20, 0] : List Byte).length = blk3.params.attachLen ∧
    ([20, 0] : List Byte)[0]? = some 20 ∧ ([20, 0] : List Byte)[1]? = some 0 :=
  ⟨blk3_inv, rfl, rfl, rfl, rfl, rfl⟩

theorem witness_FailedAttachLeavesResetState :
    BlockInv blk3 ∧ blk3.busy = false ∧ ([5] : List Byte).length ≠ blk3.params.attachLen ∧
    (∃ pin count : Byte, ([20, 3] : List Byte)[0]? = some pin ∧
      ([20, 3] : List Byte)[1]? = some count ∧ pinMap blk3.params pin = none) :=
  ⟨blk3_inv, rfl, by decide, 20, 3, rfl, rfl, rfl⟩

theorem witness_ReattachIsDetachThenAttach : blk3.attached = true := rfl

theorem witness_DetachReleasesAndLeavesPins :
    State.reset.attached = false ∧ blk3.attached = true := ⟨rfl, rfl⟩

theorem witness_AttachFrame :
    BlockInv blk3 ∧ (∃ t, exec (.attach [6, 2]) blk3 = .next t) ∧
    (∃ t, exec (.attach [20, 2]) blk3 = .next t) := ⟨blk3_inv, ⟨_, rfl⟩, _, rfl⟩

theorem witness_RoundingIsNearestTiesUp : 0 < 1000000000 := by decide

/-- Overhead equal to the nominal width, and one above it (V41-8, V41-9 at the boundary). -/
theorem witness_DelayConstantsAndWidths :
    phaseOvh { ref16 with ovhT0h := 6 } .t0h ≤ nom { ref16 with ovhT0h := 6 } .t0h ∧
    nom { ref16 with ovhT0h := 7 } .t0h < phaseOvh { ref16 with ovhT0h := 7 } .t0h := by decide

theorem witness_PortBitSetAndClear : Memory.wf blk3.port = true := rfl

theorem witness_CriticalSectionRestoresIe :
    (setHigh ⟨groupD, 0x20⟩ (maskEnter blk3)).savedIe = (maskEnter blk3).savedIe := rfl

theorem witness_SendBitZeroResult :
    blk3.cfg = .valid (cfg5 3) ∧ (cfg5 3).portSel ∈ blk3.params.portGroups ∧
    Memory.wf blk3.port = true := by decide

theorem witness_SendBitOneResult :
    blk3.cfg = .valid (cfg5 3) ∧ (cfg5 3).portSel ∈ blk3.params.portGroups ∧
    Memory.wf blk3.port = true ∧ { blk3 with ie := false }.ie = false := by decide

/-- A group outside `PORT_GROUPS`: 69, one past the last of REF16; the last pin that resolves. -/
theorem witness_AccessesOutsideTheMachineStop :
    State.reset.cfg = .invalid ∧
    { blk3 with cfg := .valid ⟨5, 3, 69, 0x20⟩ }.cfg = .valid ⟨5, 3, 69, 0x20⟩ ∧
    (69 : PortGroup) ∉ { blk3 with cfg := .valid ⟨5, 3, 69, 0x20⟩ }.params.portGroups ∧
    pinMap blk3.params 19 = some (groupC, 5) ∧
    (given (.writePort 69 0) blk3).busy = false ∧ 69 ∉ blk3.params.portGroups := by decide

theorem witness_SendByteResult :
    blk3.cfg = .valid (cfg5 3) ∧ (cfg5 3).portSel ∈ blk3.params.portGroups ∧
    Memory.wf blk3.port = true := by decide

/-- The last pixel, and the first index past it. -/
theorem witness_SendPixelResult :
    blk3.cfg = .valid (cfg5 3) ∧ (cfg5 3).portSel ∈ blk3.params.portGroups ∧
    Memory.wf blk3.port = true ∧ blk3.buf[(2 : Byte).toNat]? = some black ∧
    blk3.buf.length ≤ (3 : Byte).toNat := by decide

theorem witness_SendFrameResult : BlockInv blk3 ∧ Live blk3 (cfg5 3) 5 := ⟨blk3_inv, blk3_live⟩

/-- V42-10 and V42-11: bit 30 is of pixel 1, bit 23 the last of pixel 0. -/
theorem witness_FrameBitPosition :
    blk3.buf[23 / 24]? = some black ∧ blk3.buf[30 / 24]? = some black ∧
    blk3.buf[71 / 24]? = some black := by decide

theorem witness_FrameEventCounts : BlockInv blk3 ∧ Live blk3 (cfg5 3) 5 :=
  ⟨blk3_inv, blk3_live⟩

theorem witness_FrameWaveform :
    BlockInv blk3 ∧ Live blk3 (cfg5 3) 5 ∧ (frameBits blk3.buf)[71]? = some false ∧
    { blk3 with ie := false }.ie = false := ⟨blk3_inv, blk3_live, by decide⟩

theorem witness_LineIsLowAfterFrame : BlockInv blk3 ∧ Live blk3 (cfg5 3) 5 ∧ blk3.buf ≠ [] :=
  ⟨blk3_inv, blk3_live, by decide⟩

/-- The first bit, the last bit, the end. -/
theorem witness_SequencerSendsBitAtCursor :
    (∀ cur, Live (midFrame cur) (cfg5 3) 5 ∧ (midFrame cur).busy = true) ∧
    (frameBits (midFrame Cursor.start).buf)[Cursor.start.linear]? = some false ∧
    (frameBits (midFrame ⟨2, .blue, 0⟩).buf)[(⟨2, .blue, 0⟩ : Cursor).linear]? = some false ∧
    (midFrame ⟨3, .green, 7⟩).cursor.linear = 24 * (cfg5 3).pixelCount.toNat :=
  ⟨fun _ => ⟨blk3_live.of_eq rfl rfl rfl rfl, rfl⟩, by decide⟩

theorem witness_SteppedFrameIsSendFrame :
    BlockInv (midFrame Cursor.start) ∧ Live (midFrame Cursor.start) (cfg5 3) 5 ∧
    (midFrame Cursor.start).busy = true ∧ (midFrame Cursor.start).cursor = Cursor.start :=
  ⟨midFrame_inv _, blk3_live.of_eq rfl rfl rfl rfl, rfl, rfl⟩

/-- REF16 tells the bits apart at any threshold from 7 to 13 cycles. -/
theorem witness_ReceiverReadsBufferBack :
    BlockInv blk3 ∧ Live blk3 (cfg5 3) 5 ∧ blk3.attached = true ∧
    blk3.params.resetIntervalUs ≤ elapsed blk3.params.tsWidth 50 blk3.lastTx ∧
    width blk3.params .t0h < 7 ∧ 13 ≤ width blk3.params .t1h :=
  ⟨blk3_inv, blk3_live, by decide⟩

theorem witness_ElapsedIsTrueTimeAcrossWrap : 2 ^ 32 - 1 < 2 ^ 32 := by decide

theorem witness_RequestShowTransmitsFrame :
    BlockInv blk3 ∧ Live blk3 (cfg5 3) 5 ∧ blk3.attached = true ∧
    blk3.params.resetIntervalUs ≤ elapsed blk3.params.tsWidth 50 blk3.lastTx :=
  ⟨blk3_inv, blk3_live, by decide⟩

theorem witness_DroppedShowChangesNothing :
    elapsed blk3.params.tsWidth 49 blk3.lastTx < blk3.params.resetIntervalUs := by decide

theorem witness_UnattachedCommandsIgnored : State.reset.attached = false := rfl

theorem witness_UpdateGatesThenShows :
    State.reset.attached = false ∧ { blk3 with dirty := false }.dirty = false ∧
    elapsed blk3.params.tsWidth 33332 blk3.lastTx < blk3.params.refreshIntervalUs ∧
    blk3.attached = true ∧ blk3.dirty = true ∧
    blk3.params.refreshIntervalUs ≤ elapsed blk3.params.tsWidth 33333 blk3.lastTx := by decide

theorem witness_UpdateTransmitsDirtyBuffer :
    BlockInv blk3 ∧ Live blk3 (cfg5 3) 5 ∧ blk3.attached = true ∧ blk3.dirty = true ∧
    blk3.params.refreshIntervalUs ≤ elapsed blk3.params.tsWidth 33333 blk3.lastTx ∧
    blk3.params.resetIntervalUs ≤ elapsed blk3.params.tsWidth 33333 blk3.lastTx :=
  ⟨blk3_inv, blk3_live, by decide⟩

/-- Both sides of both gates: 49 and 50, 33332 and 33333 microseconds. -/
theorem witness_FirstShowGatedAgainstTimeZero :
    BlockInv State.reset ∧ pinMap State.reset.params 5 = some (groupD, 5) ∧
    ([5, 3] : List Byte).length = State.reset.params.attachLen ∧
    ([5, 3] : List Byte)[0]? = some 5 ∧ ([5, 3] : List Byte)[1]? = some 3 ∧
    49 < 2 ^ State.reset.params.tsWidth ∧ 49 < State.reset.params.resetIntervalUs ∧
    State.reset.params.resetIntervalUs ≤ 50 ∧ 33332 < State.reset.params.refreshIntervalUs ∧
    State.reset.params.refreshIntervalUs ≤ 33333 ∧ 33333 < 2 ^ State.reset.params.tsWidth :=
  ⟨reset_inv, rfl, rfl, rfl, rfl, by decide⟩

theorem witness_PatchesCoalesceIntoOneFrame :
    BlockInv blk3 ∧ Live blk3 (cfg5 3) 5 ∧ blk3.attached = true ∧
    blk3.params.resetIntervalUs ≤ elapsed blk3.params.tsWidth 50 blk3.lastTx :=
  ⟨blk3_inv, blk3_live, by decide⟩

/-- A show of the live block whose reset gap has passed completes. -/
theorem blk3_shows {now d : Stamp} (hg : resetGapOk now blk3 = true) :
    ∃ t, exec (.requestShow now d) blk3 = .next t :=
  have ⟨_, hu, _⟩ := sendFrame_done blk3_live blk3_inv.portWf
  ⟨_, requestShow_eq rfl hg hu⟩

/-- An update of the live dirty block whose two gates have passed is that show. -/
theorem blk3_updates {now d : Stamp} (hr : refreshOk now blk3 = true)
    (hg : resetGapOk now blk3 = true) : ∃ t, exec (.update now d) blk3 = .next t := by
  have e : exec (.update now d) blk3 = exec (.requestShow now d) blk3 := by
    simp [exec, execUpdate, updateTick, execRequestShow, hr, show blk3.attached = true from rfl,
      show blk3.dirty = true from rfl]
  exact e ▸ blk3_shows hg

/-- ATTACH failing and succeeding; payloads of 2 and 3 bytes; both sides of both gates: 49 and 50, 33332
and 33333 microseconds. -/
theorem witness_SchedulerTransitionTable :
    BlockInv blk3 ∧ (∃ t, exec (.attach [5]) blk3 = .next t ∧ t.attachResult = .failure) ∧
    (∃ t, exec (.attach [5, 3]) blk3 = .next t ∧ t.attachResult = .success) ∧
    (∃ t, exec .detach blk3 = .next t) ∧
    (∃ t, exec (.writePatch [0, 0]) blk3 = .next t) ∧
    (∃ t, exec (.writePatch [0, 0, 0]) blk3 = .next t) ∧
    (resetGapOk 49 blk3 = false ∧ ∃ t, exec (.requestShow 49 0) blk3 = .next t) ∧
    (resetGapOk 50 blk3 = true ∧ ∃ t, exec (.requestShow 50 0) blk3 = .next t) ∧
    (refreshOk 33332 blk3 = false ∧ ∃ t, exec (.update 33332 0) blk3 = .next t) ∧
    (refreshOk 33333 blk3 = true ∧ resetGapOk 33333 blk3 = true ∧
      ∃ t, exec (.update 33333 0) blk3 = .next t) :=
  ⟨blk3_inv, ⟨_, rfl, rfl⟩, ⟨_, rfl, rfl⟩, ⟨_, rfl⟩, ⟨_, rfl⟩, ⟨_, rfl⟩, ⟨by decide, _, rfl⟩,
    ⟨by decide, blk3_shows (by decide)⟩, ⟨by decide, _, rfl⟩,
    ⟨by decide, by decide, blk3_updates (by decide) (by decide)⟩⟩

/-- The shortest payload with a length byte, and the last quadruple of a whole region. -/
theorem witness_QuadrupleLayout :
    ref16.patchLenOffset < ([0, 0, 0] : List Byte).length ∧ 4 ≤ ref16.quadSize ∧
    1 < min (8 : Byte).toNat (([0, 0, 8, 0, 255, 0, 0, 2, 0, 0, 255] : List Byte).length -
      ref16.patchDataOffset) / ref16.quadSize := by decide

theorem witness_PatchCapacity : ref16.quadSize = 4 := rfl

/-- The two header bytes of REF16. -/
theorem witness_PatchHeaderNotRead :
    ([0, 0] : List Byte).length = ([7, 8] : List Byte).length ∧
    ([0, 0] : List Byte).length ≤ blk3.params.patchLenOffset ∧
    ([0, 0] : List Byte).length ≤ blk3.params.patchDataOffset := by decide

/-- Index 2 is the last inside, index 3 the first outside. -/
theorem witness_WritePatchResult :
    BlockInv blk3 ∧ Live blk3 (cfg5 3) 5 ∧ blk3.attached = true ∧
    blk3.params.patchLenOffset < ([0, 0, 4, 3, 9, 9, 9] : List Byte).length ∧ blk3.buf[2]? = some black ∧
    (∃ q ∈ quads blk3.params [0, 0, 4, 3, 9, 9, 9], (cfg5 3).pixelCount.toNat ≤ q.idx.toNat) :=
  ⟨blk3_inv, blk3_live, by decide⟩

theorem witness_PatchIgnoredWhenShortOrUnattached :
    State.reset.attached = false ∧ ([0, 0] : List Byte).length ≤ blk3.params.patchLenOffset := by decide

theorem witness_ReplaceSetsWholeBuffer :
    BlockInv blk3 ∧ Live blk3 (cfg5 3) 5 ∧ blk3.attached = true ∧ blk3.params.lineLayout = true ∧
    [⟨1, 2, 3⟩, black, black].length = (cfg5 3).pixelCount.toNat :=
  ⟨blk3_inv, blk3_live, by decide⟩

theorem witness_OnlyAttachAndPatchRaise :
    (∃ t, exec (.attach [5]) blk3 = .next t) ∧ (∃ t, exec .sendBit1 blk3 = .next t) ∧
    (∀ p, Instr.sendBit1 ≠ .attach p) ∧ (∀ p, Instr.sendBit1 ≠ .writePatch p) :=
  ⟨⟨_, rfl⟩, ⟨_, rfl⟩, by simp, by simp⟩

theorem witness_OperationsLeaveIeAndTime : ∃ t, exec .sendBit0 blk3 = .next t := ⟨_, rfl⟩

theorem witness_TransmissionNeverWritesBuffer :
    (∃ t, exec .sendFrame (blk []) = .next t) ∧ (∃ t, exec (.sendPixel 2) blk3 = .next t) ∧
    (∃ t, exec (.sendByte 0xB0) blk3 = .next t) ∧ (∃ t, exec .sendBit0 blk3 = .next t) ∧
    (∃ t, exec .sendBit1 blk3 = .next t) :=
  ⟨⟨_, rfl⟩, ⟨_, rfl⟩, ⟨_, rfl⟩, ⟨_, rfl⟩, _, rfl⟩

theorem witness_ConfigurationAndDirectionFixed :
    (∃ t, exec (.writePatch [0, 0, 0]) blk3 = .next t) ∧ Memory.wf blk3.dir = true ∧
    (∀ p, Instr.writePatch [0, 0, 0] ≠ .attach p) ∧ Instr.writePatch [0, 0, 0] ≠ .detach :=
  ⟨⟨_, rfl⟩, rfl, by simp, by simp⟩

theorem witness_OtherPortBitsUntouched :
    Memory.wf blk3.port = true ∧ (∃ t, exec (.sendByte 1) blk3 = .next t) := ⟨rfl, _, rfl⟩

end Sys2Proof.Tests
end

section
/-! PROOFS (00_scope). The parameters are fixed for a whole run (R6) and the trace is append-only
(R20 (d)): shown of each way an operation, a platform move and a step can go. -/

namespace Sys2Proof.Machine

open Sys2Proof.Safety

/-- From `s` to `t` the parameter set is kept and the trace only appended to (R6, R20 (d)). -/
structure Grows (s t : State) : Prop where
  config : t.config = s.config
  out : s.out <+: t.out

/-- A change of other fields only. -/
theorem Grows.of_eq {s t : State} (hc : t.config = s.config) (ho : t.out = s.out) : Grows s t :=
  ⟨hc, ho ▸ List.prefix_rfl⟩

theorem Grows.refl (s : State) : Grows s s := .of_eq rfl rfl

theorem Grows.trans {s t u : State} (h : Grows s t) (k : Grows t u) : Grows s u :=
  ⟨k.config.trans h.config, h.out.trans k.out⟩

theorem release_grows (s : State) : Grows s (release s) := .of_eq rfl rfl

theorem raiseErr_grows (k : ErrKind) (s : State) : Grows s (raiseErr k s) :=
  ⟨rfl, List.prefix_append _ _⟩

theorem attachFails_grows (k : ErrKind) (s : State) : Grows s (attachFails k s) :=
  ⟨rfl, List.prefix_append _ _⟩

theorem attachTo_grows (pin n : Byte) (g : PortGroup) (k : Nat) (s : State) :
    Grows s (attachTo pin n g k s) :=
  ⟨rfl, by rw [attachTo_out, List.append_assoc]; exact List.prefix_append _ _⟩

/-- Quadruples touch the buffer and `dirty` only; the report, if any, is one event. -/
theorem patchOutcome_grows (c : DeviceConfig) (p : List Byte) (s : State) :
    Grows s (patchOutcome c p s) := by
  have hp : Grows s (patched c.pixelCount.toNat (quads s.params p) s) := .of_eq rfl rfl
  unfold patchOutcome
  split
  · exact hp.trans (raiseErr_grows _ _)
  · exact hp

theorem EngineRan.grows {s t : State} (h : EngineRan s t) : Grows s t := by
  obtain ⟨l, bs, hout⟩ := h.out
  exact ⟨h.frame.config, hout ▸ List.prefix_append _ _⟩

/-- The state an ATTACH works on, released or not. -/
theorem grows_of_released {s s0 : State} (h : s0 = s ∨ s0 = release s) : Grows s s0 := by
  rcases h with rfl | rfl
  · exact .refl _
  · exact release_grows s

theorem Ran.grows {i : Instr} {s t : State} (h : Ran i s t) : Grows s t := by
  cases h with
  | same h => exact h ▸ .refl s
  | engine r => exact r.grows
  | shown u d r _ h => exact h ▸ r.grows.trans (.of_eq rfl rfl)
  | patch p c _ _ _ h => exact h ▸ patchOutcome_grows c p s
  | attachFailed _ k s0 _ h0 h => exact h ▸ (grows_of_released h0).trans (attachFails_grows k s0)
  | attachDone _ pin n g k s0 _ _ h0 _ h =>
    exact h ▸ (grows_of_released h0).trans (attachTo_grows pin n g k s0)
  | released _ h => exact h ▸ release_grows s

/-- No operation changes a parameter or takes an event back. -/
theorem exec_grows {i : Instr} {s t : State} (h : exec i s = .next t) : Grows s t :=
  (exec_ran h).grows

theorem PlatformMoved.grows {s t : State} (h : PlatformMoved s t) : Grows s t := by
  cases h with
  | setIe b h => exact h ▸ .of_eq rfl rfl
  | writePort g v _ h => exact h ▸ .of_eq rfl rfl
  | writeDir g v _ h => exact h ▸ .of_eq rfl rfl

/-- Taking an input off the queue and reading the clock precede the move; neither is a parameter or
an event. -/
theorem Stepped.grows {s t : State} (h : Stepped s t) : Grows s t := by
  cases h with
  | bit _ _ _ _ _ h => exact exec_grows h
  | endOfFrame _ h => exact h ▸ .of_eq rfl rfl
  | idle _ h => exact h ▸ .refl s
  | command _ _ _ _ _ h =>
    obtain ⟨hconfig, hout⟩ := exec_grows h
    exact ⟨hconfig, hout⟩
  | platform _ _ h =>
    obtain ⟨hconfig, hout⟩ := h.grows
    exact ⟨hconfig, hout⟩

/-- Settles O6: each way a step can go keeps the parameters and only appends to the trace. -/
theorem stepFixesParamsAndAppendsTrace : Obligations.StepFixesParamsAndAppendsTrace := by
  intro s t h
  obtain ⟨hconfig, es, hout⟩ := (step_next h).grows
  exact ⟨hconfig, es, hout.symm⟩

end Sys2Proof.Machine
end

section
/-! PROOFS (10_state): what comes first in a step, as equations (R40, R85, R225); where an access has no
element behind it and the model stops (R26, R45, R52). -/

namespace Sys2Proof.Machine

/-! ### One step of an idle block -/

/-- A presented command is decoded and run (R40, R85). -/
theorem step_command {s : State} {c : Command} {rest : List Input} {i : Instr}
    (hb : s.busy = false) (hi : s.inputs = .command c :: rest)
    (hd : decode s.params.tsWidth c = .ok i) :
    step s = exec i { s with inputs := rest, time := toStamp s.params.tsWidth c.now } := by
  simp [step, fetch, hb, fetchInput, hi, fetchCommand, hd]

/-- Another user's write of a `PORT` register (R225). -/
theorem step_writePort {s : State} {g : PortGroup} {v : Byte} {rest : List Input}
    (hb : s.busy = false) (hi : s.inputs = .writePort g v :: rest) :
    step s = otherWritesPort g v { s with inputs := rest } := by
  simp [step, fetch, hb, fetchInput, hi]

/-- Another user's write of a `DIR` register (R225). -/
theorem step_writeDir {s : State} {g : PortGroup} {v : Byte} {rest : List Input}
    (hb : s.busy = false) (hi : s.inputs = .writeDir g v :: rest) :
    step s = otherWritesDir g v { s with inputs := rest } := by
  simp [step, fetch, hb, fetchInput, hi]

/-- Settles O7: `toStamp` is the reduction modulo `2^TS_WIDTH`. -/
theorem presentedCommandRunsDecoded : Obligations.PresentedCommandRunsDecoded :=
  fun _ _ _ _ hb hi hd => step_command hb hi hd

/-! ### Faults -/

theorem readCfg_invalid {s : State} (hc : s.cfg = .invalid) :
    readCfg s = .error .noConfiguration := by
  simp [readCfg, hc]

theorem readLine_invalid {s : State} (hc : s.cfg = .invalid) :
    readLine s = .error .noConfiguration := by
  simp [readLine, readCfg_invalid hc]

theorem readLine_noGroup {s : State} {c : DeviceConfig} (hc : s.cfg = .valid c)
    (hg : c.portSel ∉ s.params.portGroups) : readLine s = .error .noSuchPortGroup := by
  simp [readLine, readCfg, hc, groupExists, hg]

theorem sendBit_fault {s : State} {f : Fault} (b : Bool) (h : readLine s = .error f) :
    sendBit b s = .error f := by
  cases b <;> simp [sendBit, sendBit0, sendBit1, h]

theorem sendByte_fault {s : State} {f : Fault} (v : Byte) (h : readLine s = .error f) :
    sendByte v s = .error f := by
  simp [sendByte, byteBits, sendBits, sendBit_fault _ h]

/-- Without a line to drive, the bit and byte operations stop with the fault that reading it gives. -/
theorem exec_bitOps_fault {s : State} {f : Fault} (v : Byte) (h : readLine s = .error f) :
    exec .sendBit0 s = .fault f ∧ exec .sendBit1 s = .fault f ∧
      exec (.sendByte v) s = .fault f := by
  refine ⟨?_, ?_, ?_⟩
  · simp [exec, execSendBit0, sendBit0, h, toOutcome]
  · simp [exec, execSendBit1, sendBit1, h, toOutcome]
  · simp [exec, execSendByte, sendByte_fault v h, toOutcome]

theorem exec_sendFrame_invalid {s : State} (hc : s.cfg = .invalid) :
    exec .sendFrame s = .fault .noConfiguration := by
  simp [exec, execSendFrame, sendFrame, readCfg_invalid hc, toOutcome]

theorem otherWritesPort_noGroup {s : State} {g : PortGroup} (v : Byte)
    (hg : g ∉ s.params.portGroups) : otherWritesPort g v s = .fault .noSuchPortGroup := by
  simp [otherWritesPort, groupExists, hg]

theorem otherWritesDir_noGroup {s : State} {g : PortGroup} (v : Byte)
    (hg : g ∉ s.params.portGroups) : otherWritesDir g v s = .fault .noSuchPortGroup := by
  simp [otherWritesDir, groupExists, hg]

/-- Settles O29: every stop is a failed read of `cfg`, of the line or of a register; a resolved group
exists by R7, and ATTACH is a total function of the state. -/
theorem accessesOutsideTheMachineStop : Obligations.AccessesOutsideTheMachineStop := by
  refine ⟨?_, ?_, ?_, ?_, ?_⟩
  · intro s v hc
    obtain ⟨h0, h1, hbyte⟩ := exec_bitOps_fault v (readLine_invalid hc)
    exact ⟨h0, h1, hbyte, exec_sendFrame_invalid hc⟩
  · intro s c v hc hg
    exact exec_bitOps_fault v (readLine_noGroup hc hg)
  · intro s pin g k h
    exact (pinMap_wf h).1
  · intro s p
    exact ⟨attach p s, rfl⟩
  · intro s g v rest hb hg
    exact ⟨fun hi => (step_writePort hb hi).trans (otherWritesPort_noGroup v hg),
      fun hi => (step_writeDir hb hi).trans (otherWritesDir_noGroup v hg)⟩

end Sys2Proof.Machine
end

section
/-! PROOFS (10_state). The invariant of R47 (i) and (ii) is kept: first by the operations on the state,
then by each command, the engine and the platform's moves, and so by every step. -/

namespace Sys2Proof.Safety

open Sys2Proof.Machine

/-! ### Operations on the state -/

/-- The engine's frame keeps the invariant, as long as `PORT` stays canonical and `busy` does not
rise. -/
theorem BlockInv.of_engineFrame {s t : State} (h : BlockInv s) (f : EngineFrame s t)
    (hport : Memory.wf t.port = true) (hbusy : t.busy = true → s.busy = true) : BlockInv t where
  portWf := hport
  dirWf := by rw [f.dir]; exact h.dirWf
  lastTxWidth := by rw [f.params, f.lastTx]; exact h.lastTxWidth
  unattached := by rw [f.attached, f.buf, f.dirty, f.lastTx, f.cfg]; exact h.unattached
  attached := by
    rw [f.attached]
    intro ha
    obtain ⟨c, k, hl⟩ := h.attached ha
    exact ⟨c, k, hl.of_eq f.params f.cfg (by rw [f.buf]) f.dir⟩
  busyAttached := fun hb => by rw [f.attached]; exact h.busyAttached (hbusy hb)

theorem BlockInv.release {s : State} (h : BlockInv s) (hb : s.busy = false) :
    BlockInv (release s) where
  portWf := h.portWf
  dirWf := h.dirWf
  lastTxWidth := Nat.two_pow_pos _
  unattached := fun _ => ⟨rfl, rfl, rfl, rfl⟩
  attached := fun ha => by simp at ha
  busyAttached := fun hbusy => by simp [hb] at hbusy

theorem BlockInv.raiseErr {s : State} (h : BlockInv s) (e : ErrKind) : BlockInv (raiseErr e s) :=
  h.of_eq rfl rfl rfl rfl rfl rfl rfl rfl rfl

theorem BlockInv.attachFails {s : State} (h : BlockInv s) (e : ErrKind) :
    BlockInv (attachFails e s) :=
  h.of_eq rfl rfl rfl rfl rfl rfl rfl rfl rfl

/-- A completed attachment is live (R104, R105, R106). -/
theorem attachTo_live {s : State} {pin : Byte} (n : Byte) {g : PortGroup} {k : Nat}
    (hw : Memory.wf s.dir = true) (hm : pinMap s.params pin = some (g, k)) :
    Live (attachTo pin n g k s) ⟨pin, n, g, oneHot k⟩ k where
  cfg := rfl
  bufLength := by simp
  resolves := hm
  mask := rfl
  isOutput := by
    rw [dirReg_eq, attachTo_dir, Memory.read_write_same _ _ hw]
    ext i
    simp +contextual

theorem BlockInv.attachTo {s : State} (h : BlockInv s) {pin : Byte} (n : Byte) {g : PortGroup}
    {k : Nat} (hm : pinMap s.params pin = some (g, k)) : BlockInv (attachTo pin n g k s) where
  portWf := h.portWf
  dirWf := Memory.write_wf _ _ h.dirWf
  lastTxWidth := Nat.two_pow_pos _
  unattached := fun ha => by simp at ha
  attached := fun _ => ⟨_, k, attachTo_live n h.dirWf hm⟩
  busyAttached := fun _ => rfl

/-- Quadruples keep the number of pixels, so an attached block stays as it must be. -/
theorem BlockInv.patched {s : State} (h : BlockInv s) (ha : s.attached = true) (n : Nat)
    (qs : List Quad) : BlockInv (patched n qs s) where
  portWf := h.portWf
  dirWf := h.dirWf
  lastTxWidth := h.lastTxWidth
  unattached := fun hu => by simp [ha] at hu
  attached := fun _ => by
    obtain ⟨c, k, hl⟩ := h.attached ha
    exact ⟨c, k, hl.of_eq rfl rfl (by simp [applyQuads_length]) rfl⟩
  busyAttached := fun _ => ha

theorem BlockInv.frameShown {s : State} (h : BlockInv s) (ha : s.attached = true) {d : Stamp}
    (hd : d < 2 ^ s.params.tsWidth) : BlockInv (frameShown d s) where
  portWf := h.portWf
  dirWf := h.dirWf
  lastTxWidth := hd
  unattached := fun hu => by simp [ha] at hu
  attached := fun _ => by
    obtain ⟨c, k, hl⟩ := h.attached ha
    exact ⟨c, k, hl.of_eq rfl rfl rfl rfl⟩
  busyAttached := fun _ => ha

/-- A write of `DIR` that keeps the block's own bits keeps its pin an output (R225). -/
theorem Live.writeDirReg {s : State} {c : DeviceConfig} {k : Nat} (h : Live s c k)
    (ha : s.attached = true) (hw : Memory.wf s.dir = true) {g : PortGroup} {v : Byte}
    (hk : keepsBits (ownMask g s) (dirReg g s) v = true) : Live (writeDirReg g v s) c k where
  cfg := h.cfg
  bufLength := h.bufLength
  resolves := h.resolves
  mask := h.mask
  isOutput := by
    have hout := h.isOutput
    rw [dirReg_eq, writeDirReg_dir, Memory.read_write _ _ hw]
    split
    · next hg =>
      subst hg
      have hown : ownMask c.portSel s = c.pinMask := by simp [ownMask, ha, h.cfg]
      rw [hown] at hk
      exact (keepsBits_and hk).trans hout
    · exact hout

theorem BlockInv.writeDirReg {s : State} (h : BlockInv s) {g : PortGroup} {v : Byte}
    (hk : keepsBits (ownMask g s) (dirReg g s) v = true) : BlockInv (writeDirReg g v s) where
  portWf := h.portWf
  dirWf := Memory.write_wf _ _ h.dirWf
  lastTxWidth := h.lastTxWidth
  unattached := h.unattached
  attached := fun ha => by
    obtain ⟨c, k, hl⟩ := h.attached ha
    exact ⟨c, k, hl.writeDirReg ha h.dirWf hk⟩
  busyAttached := h.busyAttached

/-! ### The engine, the commands, the platform -/

theorem BlockInv.of_engineRan {s t : State} (h : BlockInv s) (r : EngineRan s t)
    (hb : t.busy = s.busy ∨ t.busy = false) : BlockInv t :=
  h.of_engineFrame r.frame (r.portWf h.portWf) fun ht => by
    rcases hb with hb | hb
    · exact hb ▸ ht
    · simp [hb] at ht

/-- ATTACH works on a released block, which it leaves as it is or attaches. -/
theorem BlockInv.of_attach {s t : State} {p : List Byte} (h : BlockInv s) (hb : s.busy = false)
    (ht : exec (.attach p) s = .next t) : BlockInv t := by
  obtain ⟨s0, h0, hcases⟩ := attach_next ht
  have hs0 : BlockInv s0 := by
    rw [h0]
    split
    · exact h.release hb
    · exact h
  have hp : s0.params = s.params := h0 ▸ released_params s
  rcases hcases with ⟨-, rfl⟩ | ⟨_, _, -, -, rfl⟩ | ⟨pin, n, g, k, -, hm, rfl⟩
  · exact hs0.attachFails _
  · exact hs0.attachFails _
  · exact hs0.attachTo n (hp ▸ hm)

theorem BlockInv.of_writePatch {s t : State} {p : List Byte} (h : BlockInv s)
    (ht : exec (.writePatch p) s = .next t) : BlockInv t := by
  rcases writePatch_next ht with ⟨rfl, -⟩ | ⟨ha, -, c, -, rfl⟩
  · exact h
  · unfold patchOutcome
    split
    · exact (h.patched ha _ _).raiseErr _
    · exact h.patched ha _ _

theorem BlockInv.of_requestShow {s t : State} {now d : Stamp} (h : BlockInv s)
    (hd : d < 2 ^ s.params.tsWidth) (ht : exec (.requestShow now d) s = .next t) : BlockInv t := by
  rcases requestShow_next ht with ⟨rfl, -⟩ | ⟨ha, -, u, hu, rfl⟩
  · exact h
  · obtain ⟨r, hb⟩ := sendFrame_ok hu
    exact (h.of_engineRan r (.inr hb)).frameShown (r.frame.attached.trans ha)
      (by rwa [r.frame.params])

theorem BlockInv.of_update {s t : State} {now d : Stamp} (h : BlockInv s)
    (hd : d < 2 ^ s.params.tsWidth) (ht : exec (.update now d) s = .next t) : BlockInv t := by
  rcases update_next ht with ⟨rfl, -⟩ | ⟨-, -, -, ht⟩
  · exact h
  · exact h.of_requestShow hd ht

theorem BlockInv.of_detach {s t : State} (h : BlockInv s) (hb : s.busy = false)
    (ht : exec .detach s = .next t) : BlockInv t := by
  rw [detach_next ht]
  split
  · exact h.release hb
  · exact h

/-- A decoded command keeps the invariant: its time operands have `TS_WIDTH` bits (R71), and no frame is
in progress when it starts (R35). -/
theorem BlockInv.of_command {s t : State} {c : Command} {i : Instr} (h : BlockInv s)
    (hb : s.busy = false) (hd : decode s.params.tsWidth c = .ok i) (ht : exec i s = .next t) :
    BlockInv t := by
  have hwidth : toStamp s.params.tsWidth c.tDone < 2 ^ s.params.tsWidth :=
    Nat.mod_lt _ (Nat.two_pow_pos _)
  rcases decode_ok hd with rfl | rfl | rfl | rfl | rfl
  · exact h.of_attach hb ht
  · exact h.of_writePatch ht
  · exact h.of_requestShow hwidth ht
  · exact h.of_update hwidth ht
  · exact h.of_detach hb ht

theorem BlockInv.of_platform {s t : State} (h : BlockInv s) (hm : PlatformMoved s t) :
    BlockInv t := by
  cases hm with
  | setIe b ht => exact ht ▸ h.of_eq rfl rfl rfl rfl rfl rfl rfl rfl rfl
  | writePort g v _ ht =>
    have hf : EngineFrame s (writePortReg g v s) := by constructor <;> rfl
    exact ht ▸ h.of_engineFrame hf (Memory.write_wf _ _ h.portWf) id
  | writeDir g v hk ht => exact ht ▸ h.writeDirReg hk

end Sys2Proof.Safety

namespace Sys2Proof.Machine

open Sys2Proof.Safety

/-- Settles O3: each way a step can go keeps the invariant; what comes off the queue and the clock are
no part of it. -/
theorem stepKeepsBlockInvariant : Obligations.StepKeepsBlockInvariant := by
  intro s t h hstep
  cases step_next hstep with
  | bit c b _ _ _ ht =>
    obtain ⟨r, hb⟩ := execMicro_next (decodeSymbol_micro b) ht
    exact h.of_engineRan r hb
  | endOfFrame _ ht =>
    have hf : EngineFrame s (endFrame s) := by constructor <;> rfl
    exact ht ▸ h.of_engineFrame hf h.portWf (by simp)
  | idle _ ht => exact ht ▸ h
  | command c rest i hb hd ht =>
    have h' : BlockInv { s with inputs := rest, time := toStamp s.params.tsWidth c.now } :=
      h.of_eq rfl rfl rfl rfl rfl rfl rfl rfl rfl
    exact h'.of_command hb hd ht
  | platform rest _ hm =>
    have h' : BlockInv { s with inputs := rest } := h.of_eq rfl rfl rfl rfl rfl rfl rfl rfl rfl
    exact h'.of_platform hm

/-! ### Reset -/

theorem blockInv_reset : BlockInv State.reset where
  portWf := rfl
  dirWf := rfl
  lastTxWidth := Nat.two_pow_pos _
  unattached := fun _ => ⟨rfl, rfl, rfl, rfl⟩
  attached := fun h => by simp [State.reset] at h
  busyAttached := fun h => by simp [State.reset] at h

theorem cursorInFrame_of_not_busy {s : State} (h : s.busy = false) : CursorInFrame s :=
  fun _ hb _ => by simp [h] at hb

/-- Settles O2: at reset nothing is attached, no frame is in progress and the trace is empty. -/
theorem resetMeetsInvariants : Obligations.ResetMeetsInvariants :=
  ⟨blockInv_reset, cursorInFrame_of_not_busy rfl, rfl, rfl⟩

end Sys2Proof.Machine
end

section
/-! PROOFS (10_state). What no operation writes, or one operation only: `IE`, `TIME`, the parameters and
the queue (R47 (iv), R38, R39, R6), the buffer during a transmission (R24), `cfg` (R26), `DIR` (R37) and
`PORT` (R36), each read off the one list of things an operation can do. -/

namespace Sys2Proof.Machine

open Sys2Proof.Safety

/-! ### A patch -/

@[simp] theorem patchOutcome_config (c : DeviceConfig) (p : List Byte) (s : State) :
    (patchOutcome c p s).config = s.config := by unfold patchOutcome; split <;> rfl
@[simp] theorem patchOutcome_cfg (c : DeviceConfig) (p : List Byte) (s : State) :
    (patchOutcome c p s).cfg = s.cfg := by unfold patchOutcome; split <;> rfl
@[simp] theorem patchOutcome_busy (c : DeviceConfig) (p : List Byte) (s : State) :
    (patchOutcome c p s).busy = s.busy := by unfold patchOutcome; split <;> rfl
@[simp] theorem patchOutcome_port (c : DeviceConfig) (p : List Byte) (s : State) :
    (patchOutcome c p s).port = s.port := by unfold patchOutcome; split <;> rfl
@[simp] theorem patchOutcome_dir (c : DeviceConfig) (p : List Byte) (s : State) :
    (patchOutcome c p s).dir = s.dir := by unfold patchOutcome; split <;> rfl
@[simp] theorem patchOutcome_ie (c : DeviceConfig) (p : List Byte) (s : State) :
    (patchOutcome c p s).ie = s.ie := by unfold patchOutcome; split <;> rfl
@[simp] theorem patchOutcome_time (c : DeviceConfig) (p : List Byte) (s : State) :
    (patchOutcome c p s).time = s.time := by unfold patchOutcome; split <;> rfl
@[simp] theorem patchOutcome_inputs (c : DeviceConfig) (p : List Byte) (s : State) :
    (patchOutcome c p s).inputs = s.inputs := by unfold patchOutcome; split <;> rfl

/-! ### What belongs to the platform and the caller -/

/-- From `s` to `t` nothing of the platform's and the caller's is written: `IE`, `TIME`, the parameters,
the queue. -/
structure OutsideKept (s t : State) : Prop where
  ie : t.ie = s.ie
  time : t.time = s.time
  config : t.config = s.config
  inputs : t.inputs = s.inputs

theorem OutsideKept.refl (s : State) : OutsideKept s s := ⟨rfl, rfl, rfl, rfl⟩

theorem OutsideKept.trans {s t u : State} (h : OutsideKept s t) (k : OutsideKept t u) :
    OutsideKept s u :=
  ⟨k.ie.trans h.ie, k.time.trans h.time, k.config.trans h.config, k.inputs.trans h.inputs⟩

theorem outsideKept_of_frame {s t : State} (f : EngineFrame s t) : OutsideKept s t :=
  ⟨f.ie, f.time, f.config, f.inputs⟩

/-- The state an ATTACH works on, released or not. -/
theorem outsideKept_of_released {s s0 : State} (h : s0 = s ∨ s0 = release s) :
    OutsideKept s s0 := by
  rcases h with rfl | rfl
  · exact .refl _
  · exact ⟨rfl, rfl, rfl, rfl⟩

theorem Ran.outsideKept {i : Instr} {s t : State} (h : Ran i s t) : OutsideKept s t := by
  cases h with
  | same h => exact h ▸ .refl s
  | engine r => exact outsideKept_of_frame r.frame
  | shown u d r _ h => exact h ▸ (outsideKept_of_frame r.frame).trans ⟨rfl, rfl, rfl, rfl⟩
  | patch p c _ _ _ h => exact h ▸ ⟨by simp, by simp, by simp, by simp⟩
  | attachFailed _ k s0 _ h0 h => exact h ▸ (outsideKept_of_released h0).trans ⟨rfl, rfl, rfl, rfl⟩
  | attachDone _ pin n g k s0 _ _ h0 _ h =>
    exact h ▸ (outsideKept_of_released h0).trans ⟨rfl, rfl, rfl, rfl⟩
  | released _ h => exact h ▸ ⟨rfl, rfl, rfl, rfl⟩

/-- Settles O57: nothing an operation can do writes one of the four. -/
theorem operationsLeaveIeAndTime : Obligations.OperationsLeaveIeAndTime := by
  intro i s t h
  obtain ⟨hie, htime, hconfig, hinputs⟩ := (exec_ran h).outsideKept
  exact ⟨hie, htime, hconfig, hinputs⟩

/-! ### The buffer -/

/-- Settles O58: the buffer is in the engine's frame. -/
theorem transmissionNeverWritesBuffer : Obligations.TransmissionNeverWritesBuffer := by
  intro i s t hi h
  obtain ⟨r, -⟩ := execMicro_next hi h
  exact r.frame.buf

/-! ### The Device Configuration and the directions -/

theorem Ran.cfg_eq {i : Instr} {s t : State} (h : Ran i s t) (ha : ∀ p, i ≠ .attach p)
    (hd : i ≠ .detach) : t.cfg = s.cfg := by
  cases h with
  | same h => exact h ▸ rfl
  | engine r => exact r.frame.cfg
  | shown u d r _ h => exact h ▸ r.frame.cfg
  | patch p c _ _ _ h => simp [h]
  | attachFailed p _ _ hi => exact absurd hi (ha p)
  | attachDone p _ _ _ _ _ hi => exact absurd hi (ha p)
  | released hi => exact absurd hi hd

/-- The direction registers are kept, or ATTACH made one pin an output (R105). -/
theorem Ran.dir_cases {i : Instr} {s t : State} (h : Ran i s t) :
    t.dir = s.dir ∨
      ∃ p g k, i = .attach p ∧ t.dir = Memory.write s.dir g (dirReg g s ||| oneHot k) := by
  cases h with
  | same h => exact .inl (h ▸ rfl)
  | engine r => exact .inl r.frame.dir
  | shown u d r _ h => exact .inl (h ▸ r.frame.dir)
  | patch p c _ _ _ h => exact .inl (by simp [h])
  | attachFailed _ _ s0 _ h0 h => exact .inl (by rcases h0 with rfl | rfl <;> simp [h])
  | attachDone p _ _ g k s0 hi _ h0 _ h =>
    exact .inr ⟨p, g, k, hi, by rcases h0 with rfl | rfl <;> simp [h]⟩
  | released _ h => exact .inl (h ▸ rfl)

/-- Setting bits of one register clears none of any register. -/
theorem read_write_or_and {m : List Host.Cell} (hw : Memory.wf m = true) (a : Nat) (v : Byte)
    (g : Nat) :
    Memory.read (Memory.write m a (Memory.read m a ||| v)) g &&& Memory.read m g =
      Memory.read m g := by
  rw [Memory.read_write _ _ hw]
  split
  · next hg =>
    subst hg
    ext i
    simp +contextual
  · simp

/-- Settles O59: only ATTACH writes `DIR`, and it sets bits of one register. -/
theorem configurationAndDirectionFixed : Obligations.ConfigurationAndDirectionFixed := by
  intro i s t h
  have hran := exec_ran h
  refine ⟨hran.cfg_eq, fun ha => ?_, fun hw g => ?_⟩
  · rcases hran.dir_cases with hdir | ⟨p, _, _, hi, _⟩
    · exact hdir
    · exact absurd hi (ha p)
  · rcases hran.dir_cases with hdir | ⟨_, a, k, _, hdir⟩
    · simp [hdir]
    · simpa [hdir] using read_write_or_and hw a (oneHot k) g

/-! ### The port registers -/

/-- Only the engine writes `PORT`. -/
theorem Ran.port_cases {i : Instr} {s t : State} (h : Ran i s t) :
    t.port = s.port ∨ ∃ u, EngineRan s u ∧ t.port = u.port := by
  cases h with
  | same h => exact .inl (h ▸ rfl)
  | engine r => exact .inr ⟨t, r, rfl⟩
  | shown u d r _ h => exact .inr ⟨u, r, h ▸ rfl⟩
  | patch p c _ _ _ h => exact .inl (by simp [h])
  | attachFailed _ _ s0 _ h0 h => exact .inl (by rcases h0 with rfl | rfl <;> simp [h])
  | attachDone _ _ _ _ _ s0 _ _ h0 _ h => exact .inl (by rcases h0 with rfl | rfl <;> simp [h])
  | released _ h => exact .inl (h ▸ rfl)

/-- Settles O60: what the engine does to `PORT` is all that any operation does to it. -/
theorem otherPortBitsUntouched : Obligations.OtherPortBitsUntouched := by
  intro i s t hw h g
  rcases (exec_ran h).port_cases with hport | ⟨u, r, hport⟩
  · exact .inl (by simp [hport])
  · rw [show portReg g t = portReg g u by simp [hport]]
    exact r.otherBits hw g

end Sys2Proof.Machine
end

section
/-! PROOFS (10_state). The cursor and the frame in progress: the bit at the cursor (R30, R145), the bound
of R31, a frame as one sequence of bits (R144), and the frame taken a step at a time. -/

namespace Sys2Proof

/-! ### The frame's bits -/

@[simp] theorem frameBits_length (buf : List Pixel) : (frameBits buf).length = 24 * buf.length := by
  induction buf with
  | nil => rfl
  | cons px buf ih => simp [ih]; omega

/-- Bit `j` of pixel `i` is bit `24 * i + j` of the frame (R145). -/
theorem frameBits_getElem? {buf : List Pixel} {i j : Nat} {px : Pixel} (hi : buf[i]? = some px)
    (hj : j < 24) : (frameBits buf)[24 * i + j]? = (pixelBits px)[j]? := by
  induction buf generalizing i with
  | nil => simp at hi
  | cons qx buf ih =>
    rw [frameBits_cons]
    cases i with
    | zero =>
      obtain rfl : qx = px := by simpa using hi
      rw [Nat.mul_zero, Nat.zero_add, List.getElem?_append_left (by simpa using hj)]
    | succ i =>
      rw [List.getElem?_append_right (by simp; omega), ← ih (by simpa using hi)]
      congr 1
      simp
      omega

end Sys2Proof

namespace Sys2Proof.Machine

open Sys2Proof.Safety

/-! ### The bit at the cursor -/

/-- Bit `7 - n` of a byte is the `n`-th on the wire (R82). -/
theorem byteBits_getElem? (v : Byte) (n : BitVec 3) :
    (byteBits v)[7 - n.toNat]? = some (v.getLsbD n.toNat) := by
  have hn : n.toNat < 8 := n.isLt
  generalize n.toNat = m at hn
  interval_cases m <;> rfl

/-- The bits of a channel in the pixel's word (R81). -/
theorem pixelBits_getElem? (px : Pixel) (ch : Channel) (n : BitVec 3) :
    (pixelBits px)[8 * channelNo ch + (7 - n.toNat)]? =
      some ((channelOf ch px).getLsbD n.toNat) := by
  rw [← byteBits_getElem?]
  have hn : 7 - n.toNat < 8 := by omega
  generalize 7 - n.toNat = m at hn
  cases ch <;> interval_cases m <;> rfl

theorem channelNo_lt (ch : Channel) : channelNo ch < 3 := by cases ch <;> decide

/-- The cursor is in front of the frame's end exactly when its pixel exists (R30). -/
theorem Cursor.linear_lt_iff {c : Cursor} {n : Nat} : c.linear < 24 * n ↔ c.pix.toNat < n := by
  have := channelNo_lt c.ch
  unfold Cursor.linear
  omega

/-- The frame's bit at the cursor is the cursor's bit of its channel of its pixel (R30, R145). -/
theorem frameBits_at_cursor {buf : List Pixel} {c : Cursor} {px : Pixel}
    (h : buf[c.pix.toNat]? = some px) :
    (frameBits buf)[c.linear]? = some ((channelOf c.ch px).getLsbD c.bit.toNat) := by
  have hch := channelNo_lt c.ch
  rw [Cursor.linear, Nat.add_assoc, frameBits_getElem? h (by omega), pixelBits_getElem?]

/-- The symbol a bit is decoded to is the bit sent. -/
theorem exec_decodeSymbol (b : Bool) (s : State) :
    exec (decodeSymbol b) s = toOutcome (sendBit b s) := by
  cases b <;> rfl

/-! ### One step in mid-frame -/

/-- In front of the frame's end the step is the bit at the cursor (R30, R31). -/
theorem step_midFrame_bit {s : State} {c : DeviceConfig} {k : Nat} {b : Bool} (hl : Live s c k)
    (hbusy : s.busy = true) (hb : (frameBits s.buf)[s.cursor.linear]? = some b) :
    step s = exec (decodeSymbol b) s := by
  have hlin : s.cursor.linear < 24 * c.pixelCount.toNat := by
    obtain ⟨hlt, -⟩ := List.getElem?_eq_some_iff.mp hb
    rwa [frameBits_length, hl.bufLength] at hlt
  have hpix : s.cursor.pix.toNat < s.buf.length := by
    rw [hl.bufLength]; exact Cursor.linear_lt_iff.mp hlin
  have hpx := List.getElem?_eq_getElem hpix
  obtain rfl := Option.some.inj ((frameBits_at_cursor hpx).symm.trans hb)
  simp [step, fetch, hbusy, fetchBit, readCfg, hl.cfg, hlin, readChannel, readPixel, hpx]

/-- At the frame's end the step clears `busy` (R31). -/
theorem step_midFrame_end {s : State} {c : DeviceConfig} (hc : s.cfg = .valid c)
    (hbusy : s.busy = true) (hk : s.cursor.linear = 24 * c.pixelCount.toNat) :
    step s = .next (endFrame s) := by
  simp [step, fetch, hbusy, fetchBit, readCfg, hc, hk]

/-- Settles O38: the fetch reads the pixel, channel and bit the cursor names, which are the frame's. -/
theorem sequencerSendsBitAtCursor : Obligations.SequencerSendsBitAtCursor :=
  fun _ _ _ hl hbusy =>
    ⟨fun _ hb => step_midFrame_bit hl hbusy hb, step_midFrame_end hl.cfg hbusy⟩

/-! ### The cursor's bound -/

/-- A completed bit advances the cursor by one and keeps the rest of the engine's frame (R31). -/
theorem sendBit_advances {b : Bool} {s t : State} (h : sendBit b s = .ok t) :
    EngineFrame s t ∧ t.busy = s.busy ∧ t.cursor = s.cursor.next := by
  obtain ⟨l, -, rfl⟩ := sendBit_ok h
  refine ⟨bitOn_frame b l s, ?_, ?_⟩
  · cases b <;> simp
  · cases b <;> simp

/-- Inside a frame the advance is one in the linear form: a count is a byte, so the pixel's number does
not wrap. -/
theorem Cursor.next_linear_inFrame {c : Cursor} (n : Byte) (h : c.linear < 24 * n.toNat) :
    c.next.linear = c.linear + 1 := by
  have := n.isLt
  exact Cursor.next_linear c (by omega)

/-- No operation starts a frame that it does not end. -/
theorem Ran.busy_cases {i : Instr} {s t : State} (h : Ran i s t) :
    t.busy = s.busy ∨ t.busy = false := by
  cases h with
  | same h => exact .inl (h ▸ rfl)
  | engine _ hb => exact hb
  | shown u d _ hb h => exact .inr (h ▸ hb)
  | patch p c _ _ _ h => exact .inl (by simp [h])
  | attachFailed _ _ s0 _ h0 h => exact .inl (by rcases h0 with rfl | rfl <;> simp [h])
  | attachDone _ _ _ _ _ s0 _ _ h0 _ h => exact .inl (by rcases h0 with rfl | rfl <;> simp [h])
  | released _ h => exact .inl (h ▸ rfl)

theorem PlatformMoved.busy_eq {s t : State} (h : PlatformMoved s t) : t.busy = s.busy := by
  cases h with
  | setIe _ h => exact h ▸ rfl
  | writePort _ _ _ h => exact h ▸ rfl
  | writeDir _ _ _ h => exact h ▸ rfl

/-- Settles O4: a bit is sent only in front of the frame's end and advances the cursor by one; every
other step leaves the block idle. -/
theorem stepKeepsCursorInsideFrame : Obligations.StepKeepsCursorInsideFrame := by
  intro s t _ hcur hstep
  cases step_next hstep with
  | bit c b hb hc hk ht =>
    obtain ⟨f, -, hnext⟩ :=
      sendBit_advances (toOutcome_next.mp (exec_decodeSymbol b s ▸ ht))
    intro c' _ hc'
    obtain rfl : c = c' := DevCfg.valid.inj (hc.symm.trans (f.cfg.symm.trans hc'))
    rw [hnext, Cursor.next_linear_inFrame _ hk]
    exact hk
  | endOfFrame _ ht => exact cursorInFrame_of_not_busy (ht ▸ rfl)
  | idle _ ht => exact ht ▸ hcur
  | command c rest i hb _ ht =>
    exact cursorInFrame_of_not_busy ((exec_ran ht).busy_cases.elim (·.trans hb) id)
  | platform rest hb hm => exact cursorInFrame_of_not_busy (hm.busy_eq.trans hb)

/-! ### The line after a frame -/

/-- The mask of a resolved pin has a bit (R7). -/
theorem Live.mask_ne_zero {s : State} {c : DeviceConfig} {k : Nat} (h : Live s c k) :
    c.pinMask ≠ 0 := by
  obtain ⟨-, hk⟩ := pinMap_wf h.resolves
  rw [h.mask]
  interval_cases k <;> decide

/-- A live block's line is an output, and after at least one bit it is low (R41, R124 to R127). -/
theorem lineLevel_after_bits {s t : State} {c : DeviceConfig} {k : Nat} {bs : List Bool}
    (hl : Live s c k) (hs : Sent ⟨c.portSel, c.pinMask⟩ bs s t) (hbs : bs ≠ []) :
    lineLevel ⟨c.portSel, c.pinMask⟩ t = some false := by
  have hdir : dirReg c.portSel t &&& c.pinMask = c.pinMask := by
    rw [dirReg, hs.frame.dir]; exact hl.isOutput
  have hport : portReg c.portSel t &&& c.pinMask = 0 := by
    rw [hs.port, if_pos ⟨rfl, hbs⟩]
    ext i
    simp +contextual
  rw [lineLevel, hdir, if_neg (Live.mask_ne_zero hl), hport]
  rfl

/-- Settles O37: the frame's bits are all sent on the line, and there is at least one. -/
theorem lineIsLowAfterFrame : Obligations.LineIsLowAfterFrame := by
  intro s c k h hl hne
  obtain ⟨t, ht, hs, -⟩ := sendFrame_done hl h.portWf
  have hbits : frameBits s.buf ≠ [] := by
    rw [← List.length_pos_iff] at hne ⊢
    rw [frameBits_length]
    omega
  exact ⟨t, toOutcome_next.mpr ht, lineLevel_after_bits hl hs hbits⟩

/-! ### A frame a step at a time -/

/-- Sending pixels is sending their bits (R145). -/
theorem sendPixels_eq {n i : Nat} {s : State} (h : i + n = s.buf.length) :
    sendPixels n i s = sendBits (frameBits (s.buf.drop i)) s := by
  induction n generalizing i s with
  | zero =>
    rw [List.drop_eq_nil_of_le (by omega)]
    rfl
  | succ n ih =>
    have hi : i < s.buf.length := by omega
    rw [List.drop_eq_getElem_cons hi, frameBits_cons, sendBits_append, sendPixels,
      sendPixel_eq (List.getElem?_eq_getElem hi)]
    cases hp : sendBits (pixelBits s.buf[i]) s with
    | error f => rfl
    | ok t =>
      obtain ⟨r, -⟩ := sendBits_ok hp
      have hbuf : t.buf = s.buf := r.frame.buf
      dsimp only
      rw [ih (by rw [hbuf]; omega), hbuf]

/-- A frame is its start, its bits and its end (R144). -/
theorem sendFrame_eq {s : State} {c : DeviceConfig} (hc : s.cfg = .valid c)
    (hn : s.buf.length = c.pixelCount.toNat) :
    sendFrame s = (sendBits (frameBits s.buf) (startFrame s)).map endFrame := by
  have hp : sendPixels c.pixelCount.toNat 0 (startFrame s) =
      sendBits (frameBits s.buf) (startFrame s) :=
    sendPixels_eq (by simpa using hn.symm)
  simp only [sendFrame, readCfg, hc, hp]
  cases sendBits (frameBits s.buf) (startFrame s) <;> rfl

theorem startFrame_eq_self {s : State} (hb : s.busy = true) (hc : s.cursor = Cursor.start) :
    startFrame s = s := by
  rw [startFrame, ← hb, ← hc]

/-- From a cursor in mid-frame, as many steps as bits are left, and one more for the end, are those
bits sent and the frame ended (R30, R31). -/
theorem run_restOfFrame {bs : List Bool} {s u : State} {c : DeviceConfig} {k : Nat}
    (hl : Live s c k) (hbusy : s.busy = true)
    (hbs : bs = (frameBits s.buf).drop s.cursor.linear)
    (hcur : s.cursor.linear ≤ 24 * c.pixelCount.toNat) (h : sendBits bs s = .ok u) :
    Sys2Proof.core.run (bs.length + 1) s = .next (endFrame u) := by
  have hlen : (frameBits s.buf).length = 24 * c.pixelCount.toNat := by
    rw [frameBits_length, hl.bufLength]
  induction bs generalizing s with
  | nil =>
    obtain rfl : s = u := Except.ok.inj h
    have hend := List.drop_eq_nil_iff.mp hbs.symm
    exact run_succ (step_midFrame_end hl.cfg hbusy (by omega))
  | cons b bs ih =>
    have hlt : s.cursor.linear < (frameBits s.buf).length := by
      by_contra hge
      rw [List.drop_eq_nil_of_le (by omega)] at hbs
      simp at hbs
    rw [List.drop_eq_getElem_cons hlt] at hbs
    obtain ⟨rfl, hrest⟩ := List.cons.inj hbs
    rw [sendBits] at h
    cases hv : sendBit (frameBits s.buf)[s.cursor.linear] s with
    | error f => simp [hv] at h
    | ok v =>
      simp only [hv] at h
      obtain ⟨f, hvbusy, hvcur⟩ := sendBit_advances hv
      have hnext : v.cursor.linear = s.cursor.linear + 1 := by
        rw [hvcur, Cursor.next_linear_inFrame c.pixelCount (by omega)]
      have hstep : step s = .next v := by
        rw [step_midFrame_bit hl hbusy (List.getElem?_eq_getElem hlt), exec_decodeSymbol, hv]
        rfl
      rw [List.length_cons, run_succ hstep]
      exact ih (hl.of_eq f.params f.cfg (by rw [f.buf]) f.dir) (hvbusy.trans hbusy)
        (by rw [f.buf, hnext]; exact hrest) (by omega) h (by rw [f.buf]; exact hlen)

/-- Settles O39: at the frame's start all its bits are left, and SEND_FRAME is those bits. -/
theorem steppedFrameIsSendFrame : Obligations.SteppedFrameIsSendFrame := by
  intro s c k h hl hbusy hcur
  obtain ⟨u, hu, -⟩ := sendBits_done (frameBits s.buf) ⟨live_readLine hl, h.portWf⟩
  have hstart : s.cursor.linear = 0 := by rw [hcur]; rfl
  have hframe : sendFrame s = .ok (endFrame u) := by
    rw [sendFrame_eq hl.cfg hl.bufLength, startFrame_eq_self hbusy hcur, hu]
    rfl
  have hrun := run_restOfFrame hl hbusy (by rw [hstart, List.drop_zero]) (by omega) hu
  rw [frameBits_length, hl.bufLength] at hrun
  exact ⟨endFrame u, toOutcome_next.mpr hframe, hrun⟩

end Sys2Proof.Machine
end

section
/-! PROOFS (20_memory). Pin resolution under REF16 (R61, R62): the rows of the UNO map say where each
of their pins stands, and every pin above them has no row. -/

namespace Sys2Proof.Machine

/-- A pin resolves to nothing exactly when no row of the map is for it (R61). -/
theorem pinMap_eq_none_iff {P : Config.Params} {pin : Byte} :
    pinMap P pin = none ↔ ∀ r ∈ P.pinRows, r.pin ≠ pin := by
  simp [pinMap]

/-- The pins of the UNO map (R62). -/
theorem pinMap_ref16_ofNat : ∀ n < 20, pinMap ref16 (BitVec.ofNat 8 n) =
    if n ≤ 7 then some (groupD, n)
    else if n ≤ 13 then some (groupB, n - 8)
    else some (groupC, n - 14) := by decide

theorem unoMap_pin_le : ∀ r ∈ unoMap, r.pin.toNat ≤ 19 := by decide

/-- Settles O21: a pin up to 19 has its row in the map, and a greater pin has none. -/
theorem referencePinMap : Obligations.ReferencePinMap := by
  intro pin
  by_cases hpin : pin.toNat ≤ 19
  · have hrow := pinMap_ref16_ofNat pin.toNat (by omega)
    rw [BitVec.ofNat_toNat, BitVec.setWidth_eq] at hrow
    rw [hrow, if_pos hpin]
  · have hnone : pinMap ref16 pin = none :=
      pinMap_eq_none_iff.mpr fun r hr heq => hpin (heq ▸ unoMap_pin_le r hr)
    rw [hnone, if_neg (by omega), if_neg (by omega), if_neg hpin]

end Sys2Proof.Machine
end

section
/-! PROOFS (30_encoding). The wire formats read back: bytes and pixels from a frame's symbols (R81, R82,
R84, R85), and the symbols from the widths of the waveform's high phases (R85, R133). -/

namespace Sys2Proof

/-! ### Symbols to bytes to pixels -/

/-- The bytes of a pixel in wire order (R55, R81). -/
def pixelBytes (px : Pixel) : List Byte := [px.g, px.r, px.b]

/-- Three bytes are read off the front of a symbol stream that starts with a pixel. -/
theorem decodeBytes_pixelBits_append (px : Pixel) (bs : List Bool) :
    decodeBytes (pixelBits px ++ bs) = (decodeBytes bs).map (pixelBytes px ++ ·) := by
  simp [pixelBits, pixelBytes, decodeBytes_append, Function.comp_def]

theorem decodeBytes_frameBits (buf : List Pixel) :
    decodeBytes (frameBits buf) = some (buf.flatMap pixelBytes) := by
  induction buf with
  | nil => rfl
  | cons px buf ih => rw [frameBits_cons, decodeBytes_pixelBits_append, ih]; rfl

theorem decodePixels_flatMap_pixelBytes (buf : List Pixel) :
    decodePixels (buf.flatMap pixelBytes) = some buf := by
  induction buf with
  | nil => rfl
  | cons px buf ih => simp [pixelBytes, decodePixels, ← ih]

/-- A frame is read back as the buffer it carries (R84, R85). -/
theorem decodeFrame_frameBits (buf : List Pixel) : decodeFrame (frameBits buf) = some buf := by
  rw [decodeFrame, decodeBytes_frameBits, Option.bind_some, decodePixels_flatMap_pixelBytes]

/-- A byte is read back from its eight symbols (R82, R141). -/
theorem decodeByteWord_byteBits (v : Byte) : decodeByteWord (byteBits v) = some (.sendByte v) := by
  have hv : decodeBytes (byteBits v) = some [v] := by
    simpa [decodeBytes] using decodeBytes_append v []
  rw [decodeByteWord, hv]

/-- Settles O11: eight symbols give back their byte, and 24 of them their pixel, one after another. -/
theorem wireFormatsReadBack : Obligations.WireFormatsReadBack :=
  ⟨decodeByteWord_byteBits, decodeFrame_frameBits⟩

end Sys2Proof

namespace Sys2Proof.Machine

open Sys2Proof.Safety

/-! ### The waveform to symbols -/

/-- A threshold above `W_T0H` and up to `W_T1H` tells the two high phases apart, whatever the draw: only a
1 is drawn out (R133). -/
theorem threshold_le_highPhase {P : Config.Params} {thr : Nat} (h0 : width P .t0h < thr)
    (h1 : thr ≤ width P .t1h) (b ie : Bool) (n : Nat) :
    decide (thr ≤ width P (highPhase b) + drawHigh b ie n) = b := by
  cases b with
  | false => simpa [highPhase, drawHigh] using h0
  | true => simpa [highPhase] using h1.trans (Nat.le_add_right _ _)

/-- The receiver reads back the bits of a waveform, from any draw on. -/
theorem receive_bitsWave {P : Config.Params} {thr : Nat} (h0 : width P .t0h < thr)
    (h1 : thr ≤ width P .t1h) (ie : Bool) (n : Nat) (bs : List Bool) :
    receive thr (bitsWave P ie n bs) = bs := by
  induction bs generalizing n with
  | nil => rfl
  | cons b bs ih =>
    simp only [bitsWave, symbolWave, List.cons_append, List.nil_append, receive, ih,
      threshold_le_highPhase h0 h1]

/-- Settles O40: the show adds the waveform of the buffer's frame, which the receiver reads back. -/
theorem receiverReadsBufferBack : Obligations.ReceiverReadsBufferBack := by
  intro s c k now tDone thr h hl ha hgap h0 h1
  obtain ⟨t, ht, hs, -⟩ := sendFrame_done hl h.portWf
  refine ⟨frameShown tDone t, _, requestShow_eq ha (resetGapOk_iff.mpr hgap) ht, hs.wave, ?_⟩
  rw [receive_bitsWave h0 h1, decodeFrame_frameBits]

end Sys2Proof.Machine
end

section
/-! PROOFS (30_encoding). The command port: what an encoded command decodes to and what a decoded one
encodes to (R72 to R80, R94), and the reserved selects (R86). -/

namespace Sys2Proof

/-! ### Decoding and encoding a command -/

/-- A time operand the port delivers has the port's width (R71, R94). -/
theorem stampOk_toStamp (w t : Nat) : stampOk w (toStamp w t) = true :=
  decide_eq_true (Nat.mod_lt t (Nat.two_pow_pos w))

/-- A time operand of the port's width arrives whole (R71). -/
theorem toStamp_of_stampOk {w t : Nat} (h : stampOk w t = true) : toStamp w t = t :=
  Nat.mod_eq_of_lt (by simpa [stampOk] using h)

theorem decode_wellFormed {w : Nat} {c : Command} {i : Instr} (h : decode w c = .ok i) :
    WellFormed w i = true := by
  rcases Machine.decode_ok h with rfl | rfl | rfl | rfl | rfl <;> simp [WellFormed, stampOk_toStamp]

/-- A decoded instruction is the caller's, and goes back under the select it came from (R72). -/
theorem encode_of_decode {w : Nat} {c : Command} {i : Instr} (h : decode w c = .ok i) :
    ∃ e, encode i = some e ∧ e.op = c.op := by
  unfold decode at h
  split at h
  case h_6 => simp at h
  all_goals
    obtain rfl := Except.ok.inj h
    exact ⟨_, rfl, Eq.symm ‹_›⟩

theorem decode_of_encode {w : Nat} {i : Instr} {c : Command} (hw : WellFormed w i = true)
    (he : encode i = some c) : decode w c = .ok i := by
  cases i with
  | attach p => obtain rfl := Option.some.inj he; rfl
  | writePatch p => obtain rfl := Option.some.inj he; rfl
  | detach => obtain rfl := Option.some.inj he; rfl
  | requestShow now tDone | update now tDone =>
    obtain rfl := Option.some.inj he
    simp only [WellFormed, Bool.and_eq_true] at hw
    obtain ⟨hnow, hdone⟩ := hw
    simp [decode, toStamp_of_stampOk hnow, toStamp_of_stampOk hdone]
  | sendFrame => simp [encode] at he
  | sendPixel k => simp [encode] at he
  | sendByte v => simp [encode] at he
  | sendBit0 => simp [encode] at he
  | sendBit1 => simp [encode] at he

/-- Settles O10: a decoded instruction is well-formed, so the first half reads its encoding back. -/
theorem decodeEncodeAgree : Obligations.DecodeEncodeAgree := by
  refine ⟨fun w i c hw he => decode_of_encode hw he, fun w c i hd => ?_⟩
  obtain ⟨e, he, hop⟩ := encode_of_decode hd
  have hw := decode_wellFormed hd
  exact ⟨hw, e, he, hop, decode_of_encode hw he⟩

/-! ### Select codes -/

/-- The codes outside D2's five give no command (R86). -/
theorem decode_reserved (w : Nat) {c : Command} (h : c.op = 0#3 ∨ c.op = 6#3 ∨ c.op = 7#3) :
    decode w c = .error (.reservedSelect c.op) := by
  rcases h with h | h | h <;> simp [decode, h]

/-- Settles O9: the decoder's table, and `toStamp` is the reduction modulo `2^w`. -/
theorem selectCodesNameCommands : Obligations.SelectCodesNameCommands :=
  fun w _ _ _ => ⟨rfl, rfl, rfl, rfl, rfl, fun _ h => decode_reserved w h⟩

/-- Settles O12: the words are closed terms, and the decoder computes. -/
theorem sampleWordsDecode : Obligations.SampleWordsDecode :=
  ⟨rfl, rfl, rfl, rfl, rfl, rfl, rfl, rfl⟩

end Sys2Proof

namespace Sys2Proof.Machine

/-- A presented command with a reserved select has no step (R86). -/
theorem step_reserved {s : State} {c : Command} {rest : List Input} {op : BitVec 3}
    (hb : s.busy = false) (hi : s.inputs = .command c :: rest)
    (hd : decode s.params.tsWidth c = .error (.reservedSelect op)) :
    step s = .refused (.reservedSelect op) := by
  simp [step, fetch, hb, fetchInput, hi, fetchCommand, hd]

/-- Settles O8: the decoder rejects the code, and the command port refuses what it rejects. -/
theorem reservedSelectHasNoStep : Obligations.ReservedSelectHasNoStep :=
  fun _ _ _ hb hi hop => step_reserved hb hi (decode_reserved _ hop)

end Sys2Proof.Machine
end

section
/-! PROOFS (30_encoding). The patch payload: which bytes are quadruples (R78, R79), which are read at all
(R76), and a whole buffer sent as patches (R91, R92, R174). -/

namespace Sys2Proof.Machine

open Sys2Proof.Safety

/-! ### The layout of quadruples -/

/-- Where four bytes follow an offset, the quadruple there is those (R78). -/
theorem quadAt_drop {p : List Byte} {a : Nat} (h : a + 3 < p.length) :
    ∃ i r g b, p[a]? = some i ∧ p[a + 1]? = some r ∧ p[a + 2]? = some g ∧ p[a + 3]? = some b ∧
      quadAt (p.drop a) = some ⟨i, r, g, b⟩ := by
  refine ⟨p[a], p[a + 1], p[a + 2], p[a + 3], by simp, by simp, by simp, by simp, ?_⟩
  rw [List.drop_eq_getElem_cons (by omega), List.drop_eq_getElem_cons (by omega),
    List.drop_eq_getElem_cons (by omega), List.drop_eq_getElem_cons h]
  rfl

/-- Where every group has its four bytes, none is left out, and each is read at its own start (R79). -/
theorem takeQuads_of_le {size : Nat} (hsize : 4 ≤ size) (n : Nat) {p : List Byte}
    (h : size * n ≤ p.length) :
    (takeQuads size n p).length = n ∧
      ∀ q < n, (takeQuads size n p)[q]? = quadAt (p.drop (size * q)) := by
  induction n generalizing p with
  | zero => simp [takeQuads]
  | succ n ih =>
    rw [Nat.mul_succ] at h
    obtain ⟨hlen, hget⟩ := ih (p := p.drop size) (by rw [List.length_drop]; omega)
    obtain ⟨i, r, g, b, -, -, -, -, hhead⟩ := quadAt_drop (p := p) (a := 0) (by omega)
    rw [List.drop_zero] at hhead
    rw [takeQuads, hhead]
    refine ⟨by simp [hlen], fun q hq => ?_⟩
    cases q with
    | zero => simp [hhead]
    | succ q =>
      rw [List.getElem?_cons_succ, hget q (by omega), List.drop_drop, Nat.mul_succ, Nat.add_comm]

/-- The number of quadruples of a payload with a length byte (R79). -/
theorem nQuads_eq {P : Config.Params} {p : List Byte} {len : Byte} (h : patchLen P p = some len) :
    nQuads P p = min len.toNat (p.length - P.patchDataOffset) / P.quadSize := by
  simp [nQuads, h]

/-- The counted quadruples lie inside the payload's data (R57, R79). -/
theorem quadSize_mul_nQuads_le (P : Config.Params) (p : List Byte) :
    P.quadSize * nQuads P p ≤ p.length - P.patchDataOffset := by
  cases h : patchLen P p with
  | none => simp [nQuads, h]
  | some len =>
    rw [nQuads_eq h]
    exact (Nat.mul_div_le _ _).trans (Nat.min_le_right _ _)

/-- Settles O50: the counted quadruples lie inside the payload, so each is read whole at its offset. -/
theorem quadrupleLayout : Obligations.QuadrupleLayout := by
  intro P p hp hsize
  have hlen := patchLen_some hp
  have hbound := quadSize_mul_nQuads_le P p
  obtain ⟨hcount, hget⟩ := takeQuads_of_le hsize (nQuads P p)
    (p := p.drop P.patchDataOffset) (by rw [List.length_drop]; exact hbound)
  refine ⟨_, hlen, ?_⟩
  rw [← nQuads_eq hlen]
  refine ⟨hcount, fun q hq => ?_⟩
  have hnext : P.quadSize * (q + 1) ≤ P.quadSize * nQuads P p := Nat.mul_le_mul_left _ hq
  rw [Nat.mul_succ] at hnext
  have hin : P.patchDataOffset + P.quadSize * q + 3 < p.length := by omega
  rw [quads, hget q hq, List.drop_drop]
  exact quadAt_drop hin

/-! ### Bytes that are not read -/

/-- A patch is read through its length byte and its quadruples only (R165). -/
theorem exec_writePatch_congr {s : State} {p q : List Byte}
    (hlen : patchLen s.params p = patchLen s.params q) (hq : quads s.params p = quads s.params q) :
    exec (.writePatch p) s = exec (.writePatch q) s := by
  simp [exec, execWritePatch, writePatch, hlen, hq]

theorem patchLen_append {P : Config.Params} {h : List Byte} (hh : h.length ≤ P.patchLenOffset)
    (rest : List Byte) : patchLen P (h ++ rest) = rest[P.patchLenOffset - h.length]? :=
  List.getElem?_append_right hh

/-- Settles O52: neither the length byte nor a quadruple lies in a header that ends before both. -/
theorem patchHeaderNotRead : Obligations.PatchHeaderNotRead := by
  intro s h k rest hhk hlenOff hdataOff
  have hdataOff' : k.length ≤ s.params.patchDataOffset := hhk ▸ hdataOff
  have hlen : patchLen s.params (h ++ rest) = patchLen s.params (k ++ rest) := by
    rw [patchLen_append hlenOff, patchLen_append (hhk ▸ hlenOff), hhk]
  refine exec_writePatch_congr hlen ?_
  have hdata : (h ++ rest).drop s.params.patchDataOffset =
      (k ++ rest).drop s.params.patchDataOffset := by
    rw [List.drop_append, List.drop_append, List.drop_eq_nil_of_le hdataOff,
      List.drop_eq_nil_of_le hdataOff', hhk]
  have hcount : nQuads s.params (h ++ rest) = nQuads s.params (k ++ rest) := by
    simp [nQuads, hlen, hhk]
  rw [quads, quads, hdata, hcount]

/-! ### A buffer replaced by patches -/

theorem applyQuads_append (n : Nat) (qs rs : List Quad) (buf : List Pixel) :
    applyQuads n (qs ++ rs) buf = applyQuads n rs (applyQuads n qs buf) := by
  induction qs generalizing buf with
  | nil => rfl
  | cons q qs ih => exact ih (applyQuad n q buf)

/-- Patches add up (R168). -/
theorem patched_append (n : Nat) (qs rs : List Quad) (s : State) :
    patched n (qs ++ rs) s = patched n rs (patched n qs s) := by
  simp [patched, applyQuads_append]

/-- Quadruples for consecutive pixels overwrite that stretch of the buffer (R169). -/
theorem applyQuads_quadsFrom {pxs buf : List Pixel} {i : Nat} (h : i + pxs.length = buf.length)
    (hbyte : buf.length < 256) :
    applyQuads buf.length (quadsFrom i pxs) buf = buf.take i ++ pxs := by
  induction pxs generalizing i buf with
  | nil => simp [quadsFrom, applyQuads, ← h]
  | cons px pxs ih =>
    rw [List.length_cons] at h
    have hi : i < buf.length := by omega
    have hidx : (BitVec.ofNat 8 i).toNat = i := by simp; omega
    have hset : applyQuad buf.length ⟨BitVec.ofNat 8 i, px.r, px.g, px.b⟩ buf = buf.set i px := by
      simp [applyQuad, inRange, hidx, hi, quadPixel]
    have hrest := ih (i := i + 1) (buf := buf.set i px) (by simp; omega) (by simpa)
    rw [List.length_set] at hrest
    have htake : (buf.set i px).take (i + 1) = buf.take i ++ [px] := by
      rw [List.take_succ_eq_append_getElem (by simpa), List.take_set_of_le (Nat.le_refl i),
        List.getElem_set_self]
    rw [quadsFrom, applyQuads, hset, hrest, htake, List.append_assoc, List.singleton_append]

/-- The quadruples of consecutive pixels are in range of a buffer that holds them (R167). -/
theorem inRange_of_mem_quadsFrom {n i : Nat} {pxs : List Pixel}
    (h : i + pxs.length ≤ n) : ∀ q ∈ quadsFrom i pxs, inRange n q = true := by
  induction pxs generalizing i with
  | nil => simp [quadsFrom]
  | cons px pxs ih =>
    rw [List.length_cons] at h
    have hhead : inRange n ⟨BitVec.ofNat 8 i, px.r, px.g, px.b⟩ = true := by
      simp [inRange]; omega
    simpa [quadsFrom, hhead] using ih (i := i + 1) (by omega)

theorem quadsFrom_length (i : Nat) (pxs : List Pixel) : (quadsFrom i pxs).length = pxs.length := by
  induction pxs generalizing i with
  | nil => rfl
  | cons px pxs ih => rw [quadsFrom, List.length_cons, ih, List.length_cons]

/-- One command of at most 63 quadruples, all in range, patches the block and reports nothing (R91, R165,
R175). -/
theorem exec_patchOf {s : State} {c : DeviceConfig} {qs : List Quad} (ha : s.attached = true)
    (hc : s.cfg = .valid c) (hP : s.params.lineLayout = true) (hqs : qs.length ≤ 63)
    (hr : ∀ q ∈ qs, inRange c.pixelCount.toNat q = true) :
    exec (patchOf qs) s = .next (patched c.pixelCount.toNat qs s) := by
  have hoff : s.params.patchLenOffset < (patchPayload qs).length := by
    simp only [Config.Params.lineLayout, Bool.and_eq_true, decide_eq_true_eq] at hP
    obtain ⟨⟨hlenOff, -⟩, -⟩ := hP
    simp [hlenOff, patchPayload]
  have hnone : anyOutOfRange c.pixelCount.toNat qs = false := by
    simpa [anyOutOfRange] using hr
  rw [patchOf, writePatch_eq ha hoff hc, patchOutcome, quads_patchPayload hP qs hqs, hnone]
  rfl

/-- Instructions after one that completes run on what it leaves. -/
theorem execAll_cons_of_next {i : Instr} {is : List Instr} {s t : State} (h : exec i s = .next t) :
    execAll (i :: is) s = execAll is t := by
  rw [execAll, h]

/-- The commands of a split patch do together what its quadruples say in a row (R92, R168). -/
theorem execAll_splitPatches {m : Nat} {qs : List Quad} {s : State} {c : DeviceConfig}
    (ha : s.attached = true) (hc : s.cfg = .valid c) (hP : s.params.lineLayout = true)
    (hm : qs.length < m) (hr : ∀ q ∈ qs, inRange c.pixelCount.toNat q = true) :
    execAll (splitPatches m qs) s = .next (patched c.pixelCount.toNat qs s) := by
  induction m generalizing qs s with
  | zero => omega
  | succ m ih =>
    rw [splitPatches]
    split
    · next hshort => exact execAll_cons_of_next (exec_patchOf ha hc hP hshort hr)
    · next hlong =>
      have htake : (qs.take 63).length ≤ 63 := List.length_take_le _ _
      have hfirst := exec_patchOf ha hc hP htake fun q hq => hr q (List.mem_of_mem_take hq)
      have hrest := ih (qs := qs.drop 63) (s := patched c.pixelCount.toNat (qs.take 63) s) ha hc hP
        (by rw [List.length_drop]; omega) fun q hq => hr q (List.mem_of_mem_drop hq)
      rw [execAll_cons_of_next hfirst, hrest, ← patched_append, List.take_append_drop]

/-- Settles O55: the commands apply one quadruple per pixel, in order, none of them out of range. -/
theorem replaceSetsWholeBuffer : Obligations.ReplaceSetsWholeBuffer := by
  intro s c k pxs _ hl ha hP hpxs
  have hbyte : c.pixelCount.toNat < 256 := c.pixelCount.isLt
  have hrun := execAll_splitPatches (m := pxs.length + 1) (qs := quadsFrom 0 pxs) ha hl.cfg hP
    (by rw [quadsFrom_length]; omega) (inRange_of_mem_quadsFrom (by omega))
  have hbuf : applyQuads c.pixelCount.toNat (quadsFrom 0 pxs) s.buf = pxs := by
    rw [← hl.bufLength]
    simpa using applyQuads_quadsFrom (i := 0) (buf := s.buf) (pxs := pxs)
      (by rw [hl.bufLength]; omega) (by rw [hl.bufLength]; exact hbyte)
  exact ⟨_, hrun, hbuf, rfl, rfl, rfl, rfl, rfl⟩

end Sys2Proof.Machine
end

section
/-! PROOFS (40_attach_config). DETACH and the release that starts an ATTACH (R101, R109, R110); the one
shape of a failed ATTACH (R102, R103, R108); what ATTACH never writes (R111); a
successful one (R100, R104 to R107). -/

namespace Sys2Proof.Machine

open Sys2Proof.Safety

/-! ### Releasing -/

theorem exec_detach_unattached {s : State} (ha : s.attached = false) :
    exec .detach s = .next s := by
  simp [exec, execDetach, detach, toOutcome, ha]

theorem exec_detach_attached {s : State} (ha : s.attached = true) :
    exec .detach s = .next (release s) := by
  simp [exec, execDetach, detach, toOutcome, ha]

/-- Step 0 of ATTACH: on an attached block the released one takes its place (R101). -/
theorem exec_attach_attached {s : State} (p : List Byte) (ha : s.attached = true) :
    exec (.attach p) s = exec (.attach p) (release s) := by
  simp [exec, execAttach, attach, ha]

/-- Settles O18: DETACH is the release ATTACH starts with. -/
theorem reattachIsDetachThenAttach : Obligations.ReattachIsDetachThenAttach :=
  fun s p ha => ⟨release s, exec_detach_attached ha, rfl, rfl, exec_attach_attached p ha⟩

/-- Settles O19: DETACH releases an attached block, and the release writes only what R109 names. -/
theorem detachReleasesAndLeavesPins : Obligations.DetachReleasesAndLeavesPins :=
  fun s => ⟨exec_detach_unattached,
    fun ha => ⟨release s, exec_detach_attached ha, by simp [sched]⟩⟩

/-! ### A failed attachment -/

/-- What a failed ATTACH with an error of kind `e` does: one report of that kind, the block-owned
elements as after reset, `busy`, `PORT` and `DIR` as before (R102, R103, R108, R192). -/
structure AttachFailed (e : ErrKind) (s t : State) : Prop where
  report : ∃ msg, t.out = s.out ++ [.err (errCode s.params e) msg]
  result : t.attachResult = .failure
  attached : t.attached = false
  dirty : t.dirty = false
  lastTx : t.lastTx = 0
  cfg : t.cfg = .invalid
  buf : t.buf = []
  busy : t.busy = s.busy
  port : t.port = s.port
  dir : t.dir = s.dir

/-- The failure report on the block ATTACH works on, released or never attached. -/
theorem attachFailed_attachFails {s : State} (hs : BlockInv s) (e : ErrKind) :
    AttachFailed e s (attachFails e (if s.attached then release s else s)) := by
  obtain ⟨ha, hbuf, hcfg, hdirty, hlast, hport, hdir, hout, hparams, hbusy⟩ := hs.released rfl
  exact
    { report := ⟨_, by rw [attachFails_out, hout, hparams]⟩
      result := rfl
      attached := ha
      dirty := hdirty
      lastTx := hlast
      cfg := hcfg
      buf := hbuf
      busy := hbusy
      port := hport
      dir := hdir }

theorem exec_attach_wrongLength {s : State} {p : List Byte} (hs : BlockInv s)
    (hp : p.length ≠ s.params.attachLen) :
    ∃ t, exec (.attach p) s = .next t ∧ AttachFailed .invalidConfiguration s t :=
  ⟨_, attach_badLength (attachFields_none.mpr (.inl hp)), attachFailed_attachFails hs _⟩

theorem exec_attach_unresolvablePin {s : State} {p : List Byte} {pin count : Byte} (hs : BlockInv s)
    (hp : p.length = s.params.attachLen) (h0 : p[0]? = some pin) (h1 : p[1]? = some count)
    (hm : pinMap s.params pin = none) :
    ∃ t, exec (.attach p) s = .next t ∧ AttachFailed .unsupportedPlatform s t :=
  ⟨_, attach_noPin (attachFields_some.mpr ⟨hp, h0, h1⟩) hm, attachFailed_attachFails hs _⟩

/-- Settles O15: a wrong length leaves no fields to read, and the kind is the code of its parameter. -/
theorem attachWrongLengthFails : Obligations.AttachWrongLengthFails := by
  intro s p hs hp
  obtain ⟨t, ht, hf⟩ := exec_attach_wrongLength hs hp
  obtain ⟨msg, hout⟩ := hf.report
  exact ⟨t, _, msg, ht, errCode_toNat s _, hout, hf.attached, hf.buf, hf.cfg, hf.result, hf.port,
    hf.dir⟩

/-- Settles O16: the pin is looked up after the length, and the kind is the code of its parameter. -/
theorem attachUnresolvablePinFails : Obligations.AttachUnresolvablePinFails := by
  intro s p pin count hs hp h0 h1 hm
  obtain ⟨t, ht, hf⟩ := exec_attach_unresolvablePin hs hp h0 h1 hm
  obtain ⟨msg, hout⟩ := hf.report
  exact ⟨t, _, msg, ht, errCode_toNat s _, hout, hf.attached, hf.buf, hf.cfg, hf.result, hf.port,
    hf.dir⟩

/-- Both kinds of failing payload: one whose length is wrong whatever it holds, and one of the right
length with an unresolvable pin. -/
theorem exec_attach_failing {s : State} {p : List Byte} (hs : BlockInv s)
    (hp : p.length ≠ s.params.attachLen ∨
      ∃ pin count, p[0]? = some pin ∧ p[1]? = some count ∧ pinMap s.params pin = none) :
    ∃ t e, exec (.attach p) s = .next t ∧ AttachFailed e s t := by
  by_cases hlen : p.length = s.params.attachLen
  · obtain ⟨pin, count, h0, h1, hm⟩ := hp.resolve_left (not_not_intro hlen)
    obtain ⟨t, ht, hf⟩ := exec_attach_unresolvablePin hs hlen h0 h1 hm
    exact ⟨t, _, ht, hf⟩
  · obtain ⟨t, ht, hf⟩ := exec_attach_wrongLength hs hlen
    exact ⟨t, _, ht, hf⟩

/-- Settles O17: either failure leaves the block unattached, which is its state at reset. -/
theorem failedAttachLeavesResetState : Obligations.FailedAttachLeavesResetState := by
  intro s p hs hb hp
  obtain ⟨t, _, ht, hf⟩ := exec_attach_failing hs hp
  have hsched : sched t = .idle := by simp [sched, hf.attached]
  exact ⟨t, ht, hf.result, hf.attached, hf.dirty, hf.lastTx, hf.cfg, hf.buf, hf.busy.trans hb,
    hsched, hf.port, hf.dir⟩

/-! ### What ATTACH never writes -/

/-- From `s` to `t` nothing is transmitted: the waveform, `PORT` and the engine's own registers are as
they were. -/
structure NothingSent (s t : State) : Prop where
  wave : t.wave = s.wave
  port : t.port = s.port
  busy : t.busy = s.busy
  cursor : t.cursor = s.cursor
  savedIe : t.savedIe = s.savedIe
  dly : t.dly = s.dly

theorem NothingSent.portReg {s t : State} (h : NothingSent s t) (g : PortGroup) :
    portReg g t = portReg g s := by
  rw [portReg_eq, portReg_eq, h.port]

theorem nothingSent_of_attach {s t : State} {p : List Byte} (h : exec (.attach p) s = .next t) :
    NothingSent s t := by
  obtain ⟨s0, h0, hcases⟩ := attach_next h
  have hs0 : NothingSent s s0 := by
    rw [h0]
    split <;> constructor <;> rfl
  obtain ⟨hwave, hport, hbusy, hcursor, hsaved, hdly⟩ := hs0
  rcases hcases with ⟨-, rfl⟩ | ⟨_, _, -, -, rfl⟩ | ⟨_, _, _, _, -, -, rfl⟩ <;>
    exact ⟨hwave, hport, hbusy, hcursor, hsaved, hdly⟩

/-! ### A successful attachment -/

/-- The two events of an attachment follow the trace from before the release (R105, R107, R110). -/
theorem attachTo_released_out (s : State) (pin n : Byte) (g : PortGroup) (k : Nat) :
    (attachTo pin n g k (if s.attached then release s else s)).out =
      s.out ++ [.dirOut g (oneHot k), .regNotify] := by
  rw [attachTo_out, List.append_assoc]
  split <;> rfl

/-- One direction register gains the pin's bit over its value from before the release (R105, R110). -/
theorem dirReg_attachTo_released {s : State} (hw : Memory.wf s.dir = true) (pin n : Byte)
    (g : PortGroup) (k : Nat) (h : PortGroup) :
    dirReg h (attachTo pin n g k (if s.attached then release s else s)) =
      if h = g then dirReg g s ||| oneHot k else dirReg h s := by
  have hdir : (if s.attached then release s else s).dir = s.dir := by split <;> rfl
  rw [dirReg_eq, attachTo_dir, dirReg_eq, dirReg_eq, dirReg_eq, hdir, Memory.read_write _ _ hw]

/-- Settles O14: the attachment is made on the block as it is after the release. -/
theorem attachSucceedsWithBlankBuffer : Obligations.AttachSucceedsWithBlankBuffer := by
  intro s p pin count g k hs hp h0 h1 hm
  have ht := attach_done (attachFields_some.mpr ⟨hp, h0, h1⟩) hm
  exact ⟨_, ht, rfl, rfl, rfl, rfl, rfl, rfl, dirReg_attachTo_released hs.dirWf pin count g k,
    (nothingSent_of_attach ht).portReg, attachTo_released_out s pin count g k, rfl⟩

/-! ### The frame of ATTACH -/

/-- The parts of ATTACH's frame that its outcomes differ in: the events appended, none of them the
engine's, and the direction registers, of which one can gain the bit of the payload's pin. -/
structure AttachGrows (p : List Byte) (s t : State) : Prop where
  out : ∃ es, t.out = s.out ++ es ∧ es.all (fun e => !isEngineEvent e) = true
  dir : ∀ h, dirReg h t = dirReg h s ∨
    ∃ pin k, p.length = s.params.attachLen ∧ p[0]? = some pin ∧
      pinMap s.params pin = some (h, k) ∧ dirReg h t = dirReg h s ||| oneHot k

theorem AttachFailed.attachGrows {e : ErrKind} {s t : State} (h : AttachFailed e s t)
    (p : List Byte) : AttachGrows p s t where
  out := by
    obtain ⟨msg, hout⟩ := h.report
    exact ⟨_, hout, rfl⟩
  dir := fun g => .inl (by rw [dirReg_eq, dirReg_eq, h.dir])

theorem attachGrows_of_attach {s t : State} {p : List Byte} (hs : BlockInv s)
    (h : exec (.attach p) s = .next t) : AttachGrows p s t := by
  obtain ⟨s0, rfl, ⟨-, rfl⟩ | ⟨_, _, -, -, rfl⟩ | ⟨pin, n, g, k, hf, hm, rfl⟩⟩ := attach_next h
  · exact (attachFailed_attachFails hs _).attachGrows p
  · exact (attachFailed_attachFails hs _).attachGrows p
  · obtain ⟨hlen, hpin, -⟩ := attachFields_some.mp hf
    refine ⟨⟨_, attachTo_released_out s pin n g k, rfl⟩, fun h => ?_⟩
    have hreg := dirReg_attachTo_released hs.dirWf pin n g k h
    by_cases hg : h = g
    · subst hg
      exact .inr ⟨pin, k, hlen, hpin, hm, hreg.trans (if_pos rfl)⟩
    · exact .inl (hreg.trans (if_neg hg))

/-- Settles O20: what is the outside's and what is the engine's is kept, and the rest of the frame is
read off the outcomes of ATTACH. -/
theorem attachFrame : Obligations.AttachFrame := by
  intro s p t hs h
  obtain ⟨hout, hdir⟩ := attachGrows_of_attach hs h
  have hsent := nothingSent_of_attach h
  obtain ⟨hie, htime, hconfig, hinputs⟩ := (exec_ran h).outsideKept
  exact ⟨hout, hsent.wave, hsent.portReg, hdir, hconfig, hie, htime, hsent.busy, hsent.cursor,
    hsent.savedIe, hsent.dly, hinputs⟩

end Sys2Proof.Machine
end

section
/-! PROOFS (41_transmission_engine). The discipline of the trace (R128, R83) is kept: whole pieces
put together are whole, the trace of any bits is whole, and so is what each way a step can go
appends. -/

namespace Sys2Proof.Safety

open Sys2Proof.Machine

/-! ### Whole pieces of a trace -/

/-- A piece of a trace that closes every critical section and every pulse it opens (R128, R83). -/
def WholeTrace (es : List Event) : Prop :=
  masksPair false es = true ∧ pulsesPair false es = true

theorem traceDisciplined_iff {s : State} : TraceDisciplined s ↔ WholeTrace s.out := Iff.rfl

/-- A piece that ends outside a critical section is followed as an empty trace is. -/
theorem masksPair_append {inside : Bool} {es : List Event} (fs : List Event)
    (h : masksPair inside es = true) : masksPair inside (es ++ fs) = masksPair false fs := by
  induction es generalizing inside with
  | nil =>
    obtain rfl : inside = false := by simpa [masksPair] using h
    rfl
  | cons e es ih =>
    cases e with
    | maskEnter =>
      obtain ⟨rfl, htail⟩ : inside = false ∧ masksPair true es = true := by
        simpa [masksPair] using h
      exact ih htail
    | maskExit =>
      obtain ⟨rfl, htail⟩ : inside = true ∧ masksPair false es = true := by
        simpa [masksPair] using h
      exact ih htail
    | pinHigh | pinLow | wait | dirOut | err | regNotify => exact ih h

/-- A piece that ends outside a pulse is followed as an empty trace is. -/
theorem pulsesPair_append {high : Bool} {es : List Event} (fs : List Event)
    (h : pulsesPair high es = true) : pulsesPair high (es ++ fs) = pulsesPair false fs := by
  induction es generalizing high with
  | nil =>
    obtain rfl : high = false := by simpa [pulsesPair] using h
    rfl
  | cons e es ih =>
    cases e with
    | pinHigh g m =>
      obtain ⟨rfl, htail⟩ : high = false ∧ pulsesPair true es = true := by
        simpa [pulsesPair] using h
      exact ih htail
    | pinLow g m =>
      obtain ⟨rfl, htail⟩ : high = true ∧ pulsesPair false es = true := by
        simpa [pulsesPair] using h
      exact ih htail
    | maskEnter | maskExit | wait | dirOut | err | regNotify => exact ih h

theorem WholeTrace.append {es fs : List Event} (h : WholeTrace es) (k : WholeTrace fs) :
    WholeTrace (es ++ fs) := by
  obtain ⟨hmasks, hpulses⟩ := h
  obtain ⟨kmasks, kpulses⟩ := k
  exact ⟨(masksPair_append fs hmasks).trans kmasks, (pulsesPair_append fs hpulses).trans kpulses⟩

/-- A bit operation opens and closes one pulse, a 0 inside a critical section of its own (R126,
R127). -/
theorem wholeTrace_symbolTrace (P : Config.Params) (l : Line) (b : Bool) :
    WholeTrace (symbolTrace P l b) := by
  cases b <;> exact ⟨rfl, rfl⟩

theorem wholeTrace_bitsTrace (P : Config.Params) (l : Line) (bs : List Bool) :
    WholeTrace (bitsTrace P l bs) := by
  induction bs with
  | nil => exact ⟨rfl, rfl⟩
  | cons b bs ih =>
    rw [bitsTrace_cons]
    exact (wholeTrace_symbolTrace P l b).append ih

/-! ### What a step appends -/

theorem TraceDisciplined.append {s t : State} {es : List Event} (h : TraceDisciplined s)
    (hout : t.out = s.out ++ es) (hes : WholeTrace es) : TraceDisciplined t := by
  rw [traceDisciplined_iff, hout]
  exact (traceDisciplined_iff.mp h).append hes

theorem TraceDisciplined.of_out_eq {s t : State} (h : TraceDisciplined s) (hout : t.out = s.out) :
    TraceDisciplined t := by
  rw [traceDisciplined_iff, hout]
  exact h

theorem TraceDisciplined.of_engineRan {s t : State} (h : TraceDisciplined s)
    (r : EngineRan s t) : TraceDisciplined t := by
  obtain ⟨l, bs, hout⟩ := r.out
  exact h.append hout (wholeTrace_bitsTrace s.params l bs)

theorem TraceDisciplined.patchOutcome {s : State} (h : TraceDisciplined s) (c : DeviceConfig)
    (p : List Byte) : TraceDisciplined (patchOutcome c p s) := by
  unfold Machine.patchOutcome
  split
  · exact h.append rfl ⟨rfl, rfl⟩
  · exact h.of_out_eq rfl

/-- The state an ATTACH works on, released or not, has the trace it was given. -/
theorem TraceDisciplined.of_released {s s0 : State} (h : TraceDisciplined s)
    (h0 : s0 = s ∨ s0 = release s) : TraceDisciplined s0 := by
  rcases h0 with rfl | rfl
  · exact h
  · exact h.of_out_eq rfl

theorem TraceDisciplined.attachTo {s : State} (h : TraceDisciplined s) (pin n : Byte)
    (g : PortGroup) (k : Nat) : TraceDisciplined (attachTo pin n g k s) :=
  h.append (by rw [attachTo_out, List.append_assoc]) ⟨rfl, rfl⟩

theorem TraceDisciplined.of_ran {i : Instr} {s t : State} (h : TraceDisciplined s)
    (hr : Ran i s t) : TraceDisciplined t := by
  cases hr with
  | same ht => exact ht ▸ h
  | engine r => exact h.of_engineRan r
  | shown u d r _ ht => exact ht ▸ (h.of_engineRan r).of_out_eq rfl
  | patch p c _ _ _ ht => exact ht ▸ h.patchOutcome c p
  | attachFailed _ e s0 _ h0 ht => exact ht ▸ (h.of_released h0).append rfl ⟨rfl, rfl⟩
  | attachDone _ pin n g k s0 _ _ h0 _ ht => exact ht ▸ (h.of_released h0).attachTo pin n g k
  | released _ ht => exact ht ▸ h.of_out_eq rfl

theorem TraceDisciplined.of_platform {s t : State} (h : TraceDisciplined s)
    (hm : PlatformMoved s t) : TraceDisciplined t := by
  cases hm with
  | setIe b ht => exact ht ▸ h.of_out_eq rfl
  | writePort g v _ ht => exact ht ▸ h.of_out_eq rfl
  | writeDir g v _ ht => exact ht ▸ h.of_out_eq rfl

/-- Settles O5: each way a step can go appends a whole piece to the trace, most often none. -/
theorem stepKeepsTraceDiscipline : Obligations.StepKeepsTraceDiscipline := by
  intro s t h hstep
  cases step_next hstep with
  | bit _ _ _ _ _ ht => exact h.of_ran (exec_ran ht)
  | endOfFrame _ ht => exact ht ▸ h.of_out_eq rfl
  | idle _ ht => exact ht ▸ h
  | command c rest i _ _ ht =>
    have h' : TraceDisciplined { s with inputs := rest, time := toStamp s.params.tsWidth c.now } :=
      h.of_out_eq rfl
    exact h'.of_ran (exec_ran ht)
  | platform rest _ hm =>
    have h' : TraceDisciplined { s with inputs := rest } := h.of_out_eq rfl
    exact h'.of_platform hm

end Sys2Proof.Safety
end

section
/-! PROOFS (41_transmission_engine). The delay constants and widths (R121 to R123, R136), the
critical section and the port-bit operations (R124, R125, R128), one bit operation (R126, R127), and
what the trace and the waveform of many bits say of them (R131 to R133). -/

namespace Sys2Proof.Safety

open Sys2Proof.Machine

/-! ### What `Sent` says of one bit -/

/-- The line's register after one bit (R124, R125). -/
theorem Sent.portReg_singleton {l : Line} {b : Bool} {s t : State} (h : Sent l [b] s t)
    (g : PortGroup) :
    portReg g t = if g = l.group then portReg g s &&& ~~~l.mask else portReg g s := by
  rw [h.port g]
  simp

/-- The segments of one bit (R132). -/
theorem Sent.wave_singleton {l : Line} {b : Bool} {s t : State} (h : Sent l [b] s t) :
    t.wave = s.wave ++ symbolWave s.params b s.ie s.drawIx := by
  rw [h.wave, bitsWave, bitsWave, List.append_nil]

theorem Sent.out_singleton {l : Line} {b : Bool} {s t : State} (h : Sent l [b] s t) :
    t.out = s.out ++ symbolTrace s.params l b := by
  rw [h.out, bitsTrace, List.flatMap_singleton]

end Sys2Proof.Safety

namespace Sys2Proof.Machine

open Sys2Proof.Safety

/-! ### Delay constants and widths -/

/-- `rnd` is the natural within half of the quotient, the upper one on a tie (R121). -/
theorem rnd_nearest (num : Nat) {den : Nat} (h : 0 < den) :
    2 * den * rnd num den ≤ 2 * num + den ∧ 2 * num + den < 2 * den * (rnd num den + 1) :=
  ⟨Nat.mul_div_le _ _, Nat.lt_mul_div_succ _ (by omega)⟩

/-- Rounding nanoseconds times hertz to cycles in integer form (R121). -/
theorem rnd_giga (num : Nat) : rnd num 1000000000 = (num + 500000000) / 1000000000 := by
  unfold rnd
  omega

/-- Settles O22: `rnd` is the floor of the quotient plus a half. -/
theorem roundingIsNearestTiesUp : Obligations.RoundingIsNearestTiesUp :=
  ⟨fun num _ h => rnd_nearest num h, fun ns clk => rnd_giga (ns * clk)⟩

theorem delay_of_ovh_le {P : Config.Params} {x : Phase} (h : phaseOvh P x ≤ nom P x) :
    delay P x = nom P x - phaseOvh P x := if_pos h

/-- The clamp (R122). -/
theorem delay_of_lt_ovh {P : Config.Params} {x : Phase} (h : nom P x < phaseOvh P x) :
    delay P x = 0 := if_neg (Nat.not_le.mpr h)

/-- A phase is as long as its nominal width, or as its overhead where that is longer (R123). -/
theorem width_eq_max (P : Config.Params) (x : Phase) :
    width P x = max (nom P x) (phaseOvh P x) := by
  unfold width
  rcases Nat.lt_or_ge (nom P x) (phaseOvh P x) with h | h
  · rw [delay_of_lt_ovh h]
    omega
  · rw [delay_of_ovh_le h]
    omega

/-- Settles O23: each clause is the equation of `nom`, `delay` or `width` it speaks of. -/
theorem delayConstantsAndWidths : Obligations.DelayConstantsAndWidths :=
  fun P x => ⟨rnd_giga _, delay_of_ovh_le, delay_of_lt_ovh, rfl, width_eq_max P x⟩

/-- Settles O24: the sixty numbers are computed. -/
theorem delayTable : Obligations.DelayTable := by
  unfold Obligations.DelayTable
  decide

/-! ### The critical section and the port bits -/

/-- Settles O26: `MASK_EXIT` reads what `MASK_ENTER` saved. -/
theorem criticalSectionRestoresIe : Obligations.CriticalSectionRestoresIe :=
  fun _ _ => ⟨rfl, rfl, rfl, rfl, id⟩

/-- A register after one register was changed by `f`. -/
theorem portReg_update {s : State} (hw : Memory.wf s.port = true) (g : PortGroup)
    (f : Byte → Byte) (h : PortGroup) :
    portReg h (writePortReg g (f (portReg g s)) s) =
      if h = g then f (portReg h s) else portReg h s := by
  rw [portReg_eq h (writePortReg _ _ _), writePortReg_port, Memory.read_write _ _ hw]
  split
  · next hg => rw [hg]
  · rfl

theorem portReg_setHigh {s : State} (hw : Memory.wf s.port = true) (l : Line) (g : PortGroup) :
    portReg g (setHigh l s) = if g = l.group then portReg g s ||| l.mask else portReg g s :=
  portReg_update hw l.group (· ||| l.mask) g

theorem portReg_setLow {s : State} (hw : Memory.wf s.port = true) (l : Line) (g : PortGroup) :
    portReg g (setLow l s) = if g = l.group then portReg g s &&& ~~~l.mask else portReg g s :=
  portReg_update hw l.group (· &&& ~~~l.mask) g

/-- Settles O25: a set or clear is one write of one register and one event. -/
theorem portBitSetAndClear : Obligations.PortBitSetAndClear :=
  fun l _ hw => ⟨portReg_setHigh hw l, portReg_setLow hw l, rfl, rfl⟩

/-! ### One bit operation -/

theorem bit0On_savedIe (l : Line) (s : State) : (bit0On l s).savedIe = s.ie := by simp [bit0On]

theorem bit1On_savedIe (l : Line) (s : State) : (bit1On l s).savedIe = s.savedIe := by
  simp [bit1On]

theorem bit0On_dly (l : Line) (s : State) : (bit0On l s).dly = 0 := by simp [bit0On]

theorem bit1On_dly (l : Line) (s : State) : (bit1On l s).dly = 0 := by simp [bit1On]

theorem exec_sendBit0_ready {s : State} {l : Line} (h : readLine s = .ok l) :
    exec .sendBit0 s = .next (bit0On l s) := by
  simp [exec, execSendBit0, sendBit0, h, toOutcome]

theorem exec_sendBit1_ready {s : State} {l : Line} (h : readLine s = .ok l) :
    exec .sendBit1 s = .next (bit1On l s) := by
  simp [exec, execSendBit1, sendBit1, h, toOutcome]

/-- The high phase is drawn out for a 1 sent with interrupts enabled only (R133). -/
theorem drawHigh_of_ie_false (b : Bool) {ie : Bool} (n : Nat) (h : ie = false) :
    drawHigh b ie n = 0 := by
  simp [drawHigh, h]

/-- Settles O27: the symbol 0 is sent; the draw of its high phase is 0. -/
theorem sendBitZeroResult : Obligations.SendBitZeroResult := by
  intro s c hc hg hw
  have hsent := bit0On_sent ⟨c.portSel, c.pinMask⟩ s hw
  exact ⟨_, Config.jitterLow s.drawIx, exec_sendBit0_ready (readLine_valid hc hg), hsent.frame,
    bit0On_busy _ s, hsent.out_singleton, hsent.portReg_singleton, bit0On_cursor _ s,
    bit0On_savedIe _ s, bit0On_dly _ s, hsent.wave_singleton⟩

/-- Settles O28: the symbol 1 is sent, outside any critical section. -/
theorem sendBitOneResult : Obligations.SendBitOneResult := by
  intro s c hc hg hw
  have hsent := bit1On_sent ⟨c.portSel, c.pinMask⟩ s hw
  exact ⟨_, drawHigh true s.ie s.drawIx, Config.jitterLow s.drawIx,
    exec_sendBit1_ready (readLine_valid hc hg), hsent.frame, bit1On_busy _ s,
    bit1On_savedIe _ s, bit1On_dly _ s, hsent.out_singleton, hsent.portReg_singleton,
    bit1On_cursor _ s, drawHigh_of_ie_false true s.drawIx, hsent.wave_singleton⟩

/-! ### The bit stream of a trace -/

/-- Scanning over one symbol reads its bit and forgets the rest of it (R131). -/
theorem bits_symbolTrace_append (P : Config.Params) (l : Line) (b : Bool) (es : List Event) :
    bits (symbolTrace P l b ++ es) = b :: bits es := by
  cases b <;> rfl

theorem bits_bitsTrace (P : Config.Params) (l : Line) (bs : List Bool) :
    bits (bitsTrace P l bs) = bs := by
  induction bs with
  | nil => rfl
  | cons b bs ih => rw [bitsTrace_cons, bits_symbolTrace_append, ih]

/-- Settles O30: by induction on the sequence, a symbol at a time. -/
theorem bitStreamRecoversBits : Obligations.BitStreamRecoversBits := bits_bitsTrace

/-! ### The waveform of many bits -/

@[simp] theorem waveCycles_append (v w : List Segment) :
    waveCycles (v ++ w) = waveCycles v + waveCycles w := by
  simp [waveCycles]

/-- Draws only add to a symbol's nominal widths (R133). -/
theorem nominal_le_waveCycles_symbolWave (P : Config.Params) (b ie : Bool) (n : Nat) :
    width P (highPhase b) + width P (lowPhase b) ≤ waveCycles (symbolWave P b ie n) := by
  simp only [waveCycles, symbolWave, List.map_cons, List.map_nil, List.sum_cons, List.sum_nil]
  omega

/-- A waveform lasts at least its nominal duration, whatever the draws (R133, R154). -/
theorem nominalCycles_le_waveCycles (P : Config.Params) (ie : Bool) (n : Nat) (bs : List Bool) :
    nominalCycles P bs ≤ waveCycles (bitsWave P ie n bs) := by
  induction bs generalizing n with
  | nil => exact Nat.zero_le _
  | cons b bs ih =>
    rw [bitsWave, waveCycles_append, nominalCycles]
    exact Nat.add_le_add (nominal_le_waveCycles_symbolWave P b ie n) (ih (n + 1))

/-- Symbol `j` of a waveform is segments `2 * j` and `2 * j + 1`, with draw `n + j` (R132). -/
theorem bitsWave_getElem? {P : Config.Params} {ie : Bool} {bs : List Bool} {j : Nat} {b : Bool}
    (n : Nat) (h : bs[j]? = some b) :
    (bitsWave P ie n bs)[2 * j]? =
        some ⟨true, width P (highPhase b) + drawHigh b ie (n + j)⟩ ∧
      (bitsWave P ie n bs)[2 * j + 1]? =
        some ⟨false, width P (lowPhase b) + Config.jitterLow (n + j)⟩ := by
  induction bs generalizing j n with
  | nil => simp at h
  | cons a bs ih =>
    cases j with
    | zero =>
      obtain rfl : a = b := by simpa using h
      exact ⟨rfl, rfl⟩
    | succ j =>
      have hdraw : n + (j + 1) = n + 1 + j := by omega
      rw [hdraw]
      exact ih (n + 1) (by simpa using h)

/-- Settles O36: the frame's waveform is that of the buffer's bits, read symbol by symbol. -/
theorem frameWaveform : Obligations.FrameWaveform := by
  intro s c k h hl
  obtain ⟨t, ht, hsent, -⟩ := sendFrame_done hl h.portWf
  refine ⟨t, _, toOutcome_next.mpr ht, hsent.wave, ?_, nominalCycles_le_waveCycles _ _ _ _, ?_⟩
  · rw [bitsWave_length, frameBits_length, hl.bufLength]
  · intro j b hb
    obtain ⟨hhigh, hlow⟩ := bitsWave_getElem? s.drawIx hb
    refine ⟨_, _, hhigh, hlow, ?_, drawHigh_of_ie_false b _⟩
    rintro rfl
    rfl

end Sys2Proof.Machine
end

section
/-! PROOFS (42_serializer). A byte, a pixel and a frame as sequences of bits (R140 to R145), where each
bit of a frame comes from, and how many events of each kind a frame puts in the trace (R149). -/

namespace Sys2Proof.Machine

open Sys2Proof.Safety

/-! ### A byte and a pixel -/

/-- A configured block whose port group exists can drive its line (R52, R94). -/
theorem ready_of_valid {s : State} {c : DeviceConfig} (hc : s.cfg = .valid c)
    (hg : c.portSel ∈ s.params.portGroups) (hw : Memory.wf s.port = true) :
    Ready ⟨c.portSel, c.pinMask⟩ s :=
  ⟨readLine_valid hc hg, hw⟩

/-- Bits sent on a ready line come back out of the events they append (R131, R146). -/
theorem sendBits_observed {l : Line} {s : State} (bs : List Bool) (h : Ready l s) :
    ∃ t tr, sendBits bs s = .ok t ∧ Sent l bs s t ∧ t.busy = s.busy ∧ t.out = s.out ++ tr ∧
      bits tr = bs := by
  obtain ⟨t, ht, hd⟩ := sendBits_done bs h
  exact ⟨t, _, ht, hd.sent, hd.busy, hd.sent.out, bits_bitsTrace _ _ _⟩

/-- Settles O31: SEND_BYTE is its eight bits sent. -/
theorem sendByteResult : Obligations.SendByteResult := by
  intro s c v hc hg hw
  obtain ⟨t, tr, ht, hsent⟩ := sendBits_observed (byteBits v) (ready_of_valid hc hg hw)
  exact ⟨t, tr, toOutcome_next.mpr ht, hsent⟩

/-- Past the buffer's end there is no pixel to send (R51). -/
theorem exec_sendPixel_outside {s : State} {i : Byte} (h : s.buf.length ≤ i.toNat) :
    exec (.sendPixel i) s = .fault .noSuchPixel := by
  simp [exec, execSendPixel, sendPixel, readPixel, List.getElem?_eq_none h, toOutcome]

/-- Settles O32: inside the buffer SEND_PIXEL is the pixel's 24 bits sent. -/
theorem sendPixelResult : Obligations.SendPixelResult := by
  refine fun s c i => ⟨fun px hc hg hw hpx => ?_, exec_sendPixel_outside⟩
  obtain ⟨t, tr, ht, hsent⟩ := sendBits_observed (pixelBits px) (ready_of_valid hc hg hw)
  exact ⟨t, tr, toOutcome_next.mpr ((sendPixel_eq hpx).trans ht), hsent⟩

/-! ### A frame -/

/-- A live block's frame is 24 bits for each configured pixel (R145). -/
theorem frameBits_length_of_live {s : State} {c : DeviceConfig} {k : Nat} (h : Live s c k) :
    (frameBits s.buf).length = 24 * c.pixelCount.toNat := by
  rw [frameBits_length, h.bufLength]

/-- Settles O33: the frame's bits are sent, and the scan of its events is those bits. -/
theorem sendFrameResult : Obligations.SendFrameResult := by
  intro s c k h hl
  obtain ⟨t, ht, hsent, hbusy, -⟩ := sendFrame_done hl h.portWf
  have hbits := bits_bitsTrace s.params ⟨c.portSel, c.pinMask⟩ (frameBits s.buf)
  exact ⟨t, _, toOutcome_next.mpr ht, hsent, hbusy, hsent.frame.dirty, hsent.frame.lastTx,
    hsent.out, hbits, hbits.symm ▸ frameBits_length_of_live hl⟩

/-! ### Where a bit of the frame comes from -/

theorem exists_channelNo_eq {n : Nat} (h : n < 3) : ∃ ch, channelNo ch = n := by
  interval_cases n
  · exact ⟨.green, rfl⟩
  · exact ⟨.red, rfl⟩
  · exact ⟨.blue, rfl⟩

/-- The channel of a pixel by its number on the wire (R30). -/
theorem channelOf_eq_ite (ch : Channel) (px : Pixel) :
    channelOf ch px =
      if channelNo ch = 0 then px.g else if channelNo ch = 1 then px.r else px.b := by
  cases ch <;> rfl

/-- Settles O34: `k` splits into a pixel, a channel and a bit, and each format is read at its part. -/
theorem frameBitPosition : Obligations.FrameBitPosition := by
  refine fun buf => ⟨frameBits_length buf, fun k px hpx => ?_⟩
  obtain ⟨ch, hch⟩ := exists_channelNo_eq (Nat.mod_lt (k / 8) (by decide : 0 < 3))
  have hbit : (BitVec.ofNat 3 (7 - k % 8)).toNat = 7 - k % 8 :=
    Nat.mod_eq_of_lt (by omega)
  have hsplit : 24 * (k / 24) +
      (8 * channelNo ch + (7 - (BitVec.ofNat 3 (7 - k % 8)).toNat)) = k := by omega
  have hget := frameBits_getElem? hpx
    (j := 8 * channelNo ch + (7 - (BitVec.ofNat 3 (7 - k % 8)).toNat)) (by omega)
  rw [hsplit, pixelBits_getElem?, hbit, channelOf_eq_ite, hch] at hget
  exact hget

/-! ### Counting a frame's events -/

/-- Events of any kind in the trace of a bit sequence: as many for each 1 as one symbol 1 has, as many
for each 0 as one symbol 0 has (R146, R149). -/
theorem countP_bitsTrace (P : Config.Params) (l : Line) (bs : List Bool) (p : Event → Bool) :
    (bitsTrace P l bs).countP p =
      bs.count true * (symbolTrace P l true).countP p +
        bs.count false * (symbolTrace P l false).countP p := by
  induction bs with
  | nil => simp [bitsTrace]
  | cons b bs ih =>
    rw [bitsTrace_cons, List.countP_append, ih]
    cases b with
    | false => simp [Nat.add_mul]; omega
    | true => simp [Nat.add_mul]; omega

/-- Events both symbols have equally many of are counted by the number of bits. -/
theorem countP_bitsTrace_of_forall {P : Config.Params} {l : Line} {p : Event → Bool} {n : Nat}
    (bs : List Bool) (h : ∀ b, (symbolTrace P l b).countP p = n) :
    (bitsTrace P l bs).countP p = n * bs.length := by
  rw [countP_bitsTrace, h true, h false, ← Nat.add_mul, List.count_true_add_count_false,
    Nat.mul_comm]

/-- The line rises once a bit (R83). -/
theorem count_pinHigh_bitsTrace (P : Config.Params) (l : Line) (bs : List Bool) :
    (bitsTrace P l bs).count (.pinHigh l.group l.mask) = bs.length := by
  rw [List.count, countP_bitsTrace_of_forall (n := 1), Nat.one_mul]
  intro b
  cases b <;> simp [symbolTrace]

theorem count_pinLow_bitsTrace (P : Config.Params) (l : Line) (bs : List Bool) :
    (bitsTrace P l bs).count (.pinLow l.group l.mask) = bs.length := by
  rw [List.count, countP_bitsTrace_of_forall (n := 1), Nat.one_mul]
  intro b
  cases b <;> simp [symbolTrace]

/-- A critical section is entered for each 0 and for no 1 (R126, R127). -/
theorem count_maskEnter_bitsTrace (P : Config.Params) (l : Line) (bs : List Bool) :
    (bitsTrace P l bs).count .maskEnter = bs.count false := by
  rw [List.count, countP_bitsTrace]
  simp [symbolTrace]

theorem count_maskExit_bitsTrace (P : Config.Params) (l : Line) (bs : List Bool) :
    (bitsTrace P l bs).count .maskExit = bs.count false := by
  rw [List.count, countP_bitsTrace]
  simp [symbolTrace]

/-- Four events for a 1, six for a 0 (R126, R127). -/
theorem bitsTrace_length (P : Config.Params) (l : Line) (bs : List Bool) :
    (bitsTrace P l bs).length = 4 * bs.count true + 6 * bs.count false := by
  rw [← List.countP_true, countP_bitsTrace]
  simp [symbolTrace, Nat.mul_comm]

theorem nominalCycles_eq (P : Config.Params) (bs : List Bool) :
    nominalCycles P bs =
      bs.count true * (width P .t1h + width P .t1l) +
        bs.count false * (width P .t0h + width P .t0l) := by
  induction bs with
  | nil => simp [nominalCycles]
  | cons b bs ih =>
    rw [nominalCycles, ih]
    cases b with
    | false => simp [highPhase, lowPhase, Nat.add_mul]; omega
    | true => simp [highPhase, lowPhase, Nat.add_mul]; omega

/-- Settles O35: a frame's events are those of its bits, counted symbol by symbol. -/
theorem frameEventCounts : Obligations.FrameEventCounts := by
  intro s c k h hl
  obtain ⟨t, ht, hsent, -⟩ := sendFrame_done hl h.portWf
  have hlen := frameBits_length_of_live hl
  have hbits := List.count_false_add_count_true (frameBits s.buf)
  refine ⟨t, _, toOutcome_next.mpr ht, hsent.out, hbits.trans hlen,
    (count_pinHigh_bitsTrace _ ⟨_, _⟩ _).trans hlen, (count_pinLow_bitsTrace _ ⟨_, _⟩ _).trans hlen,
    ?waits, count_maskEnter_bitsTrace _ _ _, count_maskExit_bitsTrace _ _ _, bitsTrace_length _ _ _,
    nominalCycles_eq _ _⟩
  case waits =>
    rw [countP_bitsTrace_of_forall (n := 2), hlen]
    · omega
    · intro b
      cases b <;> rfl

end Sys2Proof.Machine
end

section
/-! PROOFS (43_scheduler). Elapsed time modulo `2^TS_WIDTH` (R151), the gates as equations of the show
and the tick (R155 to R157, R160), what a show that transmits leaves (R153, R154, R159), the first
show after ATTACH (R161), patches between two shows (R158), and the transition table (R163). -/

namespace Sys2Proof.Machine

open Sys2Proof.Safety

/-! ### Elapsed time -/

theorem elapsed_lt (w : Nat) (now since : Stamp) : elapsed w now since < 2 ^ w := by
  have hpos : 0 < ((2 ^ w : Nat) : Int) := mod_cast Nat.two_pow_pos w
  exact (Int.toNat_lt (Int.emod_nonneg _ hpos.ne')).mpr (Int.emod_lt_of_pos _ hpos)

/-- Reducing both times modulo `2^w` does not change their difference modulo `2^w` (R151). -/
theorem elapsed_wrapped (w start d : Nat) :
    elapsed w ((start + d) % 2 ^ w) (start % 2 ^ w) = d % 2 ^ w := by
  rw [elapsed, Int.natCast_mod, Int.natCast_mod, ← Int.sub_emod, Int.natCast_add,
    add_sub_cancel_left, ← Int.natCast_mod, Int.toNat_natCast]

/-- Settles O41: the reductions cancel, and a duration below `2^w` is its own remainder. -/
theorem elapsedIsTrueTimeAcrossWrap : Obligations.ElapsedIsTrueTimeAcrossWrap :=
  fun w => ⟨elapsed_lt w, elapsed_wrapped w,
    fun start d hd => (elapsed_wrapped w start d).trans (Nat.mod_eq_of_lt hd)⟩

/-! ### The gates -/

theorem resetGapOk_eq_false_iff {now : Stamp} {s : State} : resetGapOk now s = false ↔
    elapsed s.params.tsWidth now s.lastTx < s.params.resetIntervalUs := by
  simp [resetGapOk]

theorem refreshOk_eq_false_iff {now : Stamp} {s : State} : refreshOk now s = false ↔
    elapsed s.params.tsWidth now s.lastTx < s.params.refreshIntervalUs := by
  simp [refreshOk]

theorem exec_requestShow_unattached {s : State} (now d : Stamp) (ha : s.attached = false) :
    exec (.requestShow now d) s = .next s := by
  simp [exec, execRequestShow, requestShow, ha, toOutcome]

/-- A show inside the reset interval is dropped (R155). -/
theorem exec_requestShow_dropped {s : State} {now : Stamp} (d : Stamp)
    (hg : resetGapOk now s = false) : exec (.requestShow now d) s = .next s := by
  simp [exec, execRequestShow, requestShow, hg, toOutcome]

/-- A closed gate keeps the tick from the show (R156, R160). -/
theorem exec_update_closed {s : State} {now : Stamp} (d : Stamp)
    (h : s.attached = false ∨ s.dirty = false ∨ refreshOk now s = false) :
    exec (.update now d) s = .next s := by
  rcases h with ha | hd | hr
  · simp [exec, execUpdate, updateTick, ha, toOutcome]
  · simp [exec, execUpdate, updateTick, hd, toOutcome]
  · simp [exec, execUpdate, updateTick, hr, toOutcome]

/-- With its gates open the tick is the show (R157). -/
theorem exec_update_open {s : State} {now : Stamp} (d : Stamp) (ha : s.attached = true)
    (hd : s.dirty = true) (hr : refreshOk now s = true) :
    exec (.update now d) s = exec (.requestShow now d) s := by
  simp [exec, execUpdate, execRequestShow, updateTick, ha, hd, hr]

/-- Settles O43: the show's own gate is closed. -/
theorem droppedShowChangesNothing : Obligations.DroppedShowChangesNothing :=
  fun _ _ d h => exec_requestShow_dropped d (resetGapOk_eq_false_iff.mpr h)

/-- Settles O45: three gates, and the show behind them. -/
theorem updateGatesThenShows : Obligations.UpdateGatesThenShows :=
  fun _ _ d => ⟨fun ha => exec_update_closed d (.inl ha),
    fun hd => exec_update_closed d (.inr (.inl hd)),
    fun hr => exec_update_closed d (.inr (.inr (refreshOk_eq_false_iff.mpr hr))),
    fun ha hd hr => exec_update_open d ha hd (refreshOk_iff.mpr hr)⟩

/-- A patch that has no block or no length byte is ignored (R172). -/
theorem exec_writePatch_ignored {s : State} {p : List Byte}
    (h : s.attached = false ∨ p.length ≤ s.params.patchLenOffset) :
    exec (.writePatch p) s = .next s := by
  rcases h with ha | hp
  · simp [exec, execWritePatch, writePatch, ha, toOutcome]
  · simp [exec, execWritePatch, writePatch, patchLen_none.mpr hp, toOutcome]

/-- Settles O44: each of the four commands asks first whether the block is attached. -/
theorem unattachedCommandsIgnored : Obligations.UnattachedCommandsIgnored :=
  fun _ now d _ ha => ⟨exec_requestShow_unattached now d ha, exec_update_closed d (.inl ha),
    exec_writePatch_ignored (.inl ha), exec_detach_unattached ha⟩

/-! ### A show that transmits -/

theorem sched_idle_of_clean {s : State} (hd : s.dirty = false) : sched s = .idle := by
  simp [sched, hd]

theorem sched_idle_of_unattached {s : State} (ha : s.attached = false) : sched s = .idle := by
  simp [sched, ha]

theorem sched_pendingShow {s : State} (ha : s.attached = true) (hd : s.dirty = true) :
    sched s = .pendingShow := by
  simp [sched, ha, hd]

/-- On a live block whose reset gap has passed a show completes: the buffer's frame is sent, then the
timestamp set and `dirty` cleared (R153, R154). -/
theorem exec_requestShow_transmits {s : State} {c : DeviceConfig} {k : Nat} {now : Stamp} (d : Stamp)
    (hl : Live s c k) (hw : Memory.wf s.port = true) (ha : s.attached = true)
    (hg : resetGapOk now s = true) :
    ∃ u, sendFrame s = .ok u ∧ exec (.requestShow now d) s = .next (frameShown d u) ∧
      Sent ⟨c.portSel, c.pinMask⟩ (frameBits s.buf) s u ∧ u.busy = false := by
  obtain ⟨u, hu, hsent, hbusy, -⟩ := sendFrame_done hl hw
  exact ⟨u, hu, requestShow_eq ha hg hu, hsent, hbusy⟩

/-- Settles O42: `dirty` is not asked; the show is the frame but for `last_tx` and `dirty`. -/
theorem requestShowTransmitsFrame : Obligations.RequestShowTransmitsFrame := by
  intro s c k now d h hl ha hgap
  obtain ⟨u, hu, hshow, hsent, hbusy⟩ :=
    exec_requestShow_transmits d hl h.portWf ha (resetGapOk_iff.mpr hgap)
  have f := hsent.frame
  exact ⟨_, u, toOutcome_next.mpr hu, hshow, rfl, hsent.out, rfl, rfl, hbusy,
    sched_idle_of_clean rfl, f.buf, f.cfg, f.attached, f.dir, f.ie, f.config, f.time, f.inputs,
    f.attachResult⟩

/-- Settles O46: the tick is the show, which transmits. -/
theorem updateTransmitsDirtyBuffer : Obligations.UpdateTransmitsDirtyBuffer := by
  intro s c k now d h hl ha hd hrefresh hgap
  obtain ⟨u, -, hshow, hsent, -⟩ :=
    exec_requestShow_transmits d hl h.portWf ha (resetGapOk_iff.mpr hgap)
  have f := hsent.frame
  exact ⟨_, (exec_update_open d ha hd (refreshOk_iff.mpr hrefresh)).trans hshow, hsent.out, rfl, rfl,
    f.buf, f.cfg, f.attached, f.dir, f.ie, hsent.port⟩

/-! ### The first show after ATTACH -/

/-- A blank buffer is sent as zeros (R104). -/
theorem frameBits_replicate_black (n : Nat) :
    frameBits (List.replicate n black) = List.replicate (24 * n) false := by
  induction n with
  | zero => rfl
  | succ n ih =>
    have hpx : pixelBits black = List.replicate 24 false := rfl
    rw [List.replicate_succ, frameBits_cons, ih, hpx, List.replicate_append_replicate,
      Nat.mul_succ, Nat.add_comm]

/-- The show of a live block is dropped or transmits, by the time elapsed (R153, R155). -/
theorem exec_requestShow_gated {s : State} {c : DeviceConfig} {k : Nat} (now d : Stamp)
    (hl : Live s c k) (hw : Memory.wf s.port = true) (ha : s.attached = true) :
    ∃ u, exec (.requestShow now d) s = .next u ∧
      (elapsed s.params.tsWidth now s.lastTx < s.params.resetIntervalUs → u = s) ∧
      (s.params.resetIntervalUs ≤ elapsed s.params.tsWidth now s.lastTx →
        u.dirty = false ∧ u.lastTx = d ∧
        u.out = s.out ++ bitsTrace s.params ⟨c.portSel, c.pinMask⟩ (frameBits s.buf)) := by
  cases hg : resetGapOk now s with
  | false =>
    have hlt := resetGapOk_eq_false_iff.mp hg
    exact ⟨s, exec_requestShow_dropped d hg, fun _ => rfl, fun hge => absurd hlt hge.not_gt⟩
  | true =>
    have hge := resetGapOk_iff.mp hg
    obtain ⟨u, -, hshow, hsent, -⟩ := exec_requestShow_transmits d hl hw ha hg
    exact ⟨_, hshow, fun hlt => absurd hlt hge.not_gt, fun _ => ⟨rfl, rfl, hsent.out⟩⟩

/-- The tick of a dirty block does nothing or what the show does, by the time elapsed (R156, R157). -/
theorem exec_update_gated {s u : State} {now d : Stamp} (ha : s.attached = true)
    (hd : s.dirty = true) (hshow : exec (.requestShow now d) s = .next u) :
    ∃ v, exec (.update now d) s = .next v ∧
      (elapsed s.params.tsWidth now s.lastTx < s.params.refreshIntervalUs → v = s) ∧
      (s.params.refreshIntervalUs ≤ elapsed s.params.tsWidth now s.lastTx → v = u) := by
  cases hr : refreshOk now s with
  | false =>
    have hlt := refreshOk_eq_false_iff.mp hr
    exact ⟨s, exec_update_closed d (.inr (.inr hr)), fun _ => rfl,
      fun hge => absurd hlt hge.not_gt⟩
  | true =>
    have hge := refreshOk_iff.mp hr
    exact ⟨u, (exec_update_open d ha hd hr).trans hshow,
      fun hlt => absurd hlt hge.not_gt, fun _ => rfl⟩

/-- A successful ATTACH leaves a live, dirty, blank block that has sent nothing yet (R104, R106). -/
theorem exec_attach_live {s : State} {p : List Byte} {pin count : Byte} {g : PortGroup} {k : Nat}
    (hs : BlockInv s) (hp : p.length = s.params.attachLen) (h0 : p[0]? = some pin)
    (h1 : p[1]? = some count) (hm : pinMap s.params pin = some (g, k)) :
    ∃ t, exec (.attach p) s = .next t ∧ Live t ⟨pin, count, g, oneHot k⟩ k ∧
      Memory.wf t.port = true ∧ t.attached = true ∧ t.dirty = true ∧ t.lastTx = 0 ∧
      t.params = s.params ∧ t.buf = List.replicate count.toNat black := by
  obtain ⟨-, -, -, -, -, hport, hdir, -, hparams, -⟩ := hs.released rfl
  refine ⟨_, attach_done (attachFields_some.mpr ⟨hp, h0, h1⟩) hm, attachTo_live count ?dirWf ?pin,
    ?portWf, rfl, rfl, rfl, hparams, rfl⟩
  case dirWf => rw [hdir]; exact hs.dirWf
  case pin => rw [hparams]; exact hm
  case portWf => rw [attachTo_port, hport]; exact hs.portWf

/-- Settles O47: after the attachment both gates see `now` itself, and the frame is all zeros. -/
theorem firstShowGatedAgainstTimeZero : Obligations.FirstShowGatedAgainstTimeZero := by
  intro s p pin count g k now d hs hp h0 h1 hm hnow
  obtain ⟨t, hattach, hl, hw, ha, hd, hlast, hparams, hbuf⟩ := exec_attach_live hs hp h0 h1 hm
  obtain ⟨u, hu, hdrop, hsend⟩ := exec_requestShow_gated now d hl hw ha
  obtain ⟨v, hv, hwait, htick⟩ := exec_update_gated ha hd hu
  have helapsed : elapsed t.params.tsWidth now t.lastTx = now := by
    rw [hlast, elapsed_zero (hparams ▸ hnow)]
  rw [helapsed, hparams] at hdrop hsend hwait htick
  rw [hbuf, frameBits_replicate_black] at hsend
  exact ⟨t, u, v, hattach, hu, hv, hwait, htick, hdrop, hsend⟩

/-! ### Patches between two shows -/

/-- From `s` to `t` at most patches were applied: pixels, `dirty` and reports changed, and nothing a
show goes by (R158, R165). -/
structure OnlyPatched (s t : State) : Prop where
  config : t.config = s.config
  attached : t.attached = s.attached
  lastTx : t.lastTx = s.lastTx
  cfg : t.cfg = s.cfg
  bufLength : t.buf.length = s.buf.length
  port : t.port = s.port
  dir : t.dir = s.dir
  out : ∃ es, t.out = s.out ++ es ∧ es.all (fun e => !isEngineEvent e) = true

theorem OnlyPatched.refl (s : State) : OnlyPatched s s :=
  ⟨rfl, rfl, rfl, rfl, rfl, rfl, rfl, [], by simp⟩

theorem OnlyPatched.trans {s t u : State} (h : OnlyPatched s t) (k : OnlyPatched t u) :
    OnlyPatched s u where
  config := k.config.trans h.config
  attached := k.attached.trans h.attached
  lastTx := k.lastTx.trans h.lastTx
  cfg := k.cfg.trans h.cfg
  bufLength := k.bufLength.trans h.bufLength
  port := k.port.trans h.port
  dir := k.dir.trans h.dir
  out := by
    obtain ⟨es, hes, hesQuiet⟩ := h.out
    obtain ⟨fs, hfs, hfsQuiet⟩ := k.out
    exact ⟨es ++ fs, by rw [hfs, hes, List.append_assoc],
      by rw [List.all_append, hesQuiet, hfsQuiet]; rfl⟩

theorem OnlyPatched.params {s t : State} (h : OnlyPatched s t) : t.params = s.params :=
  congrArg Config.Valid.params h.config

theorem OnlyPatched.live {s t : State} {c : DeviceConfig} {k : Nat} (h : OnlyPatched s t)
    (hl : Live s c k) : Live t c k :=
  hl.of_eq h.params h.cfg h.bufLength h.dir

/-- The show's gate is open or closed as it was (R152). -/
theorem OnlyPatched.resetGapOk {s t : State} (h : OnlyPatched s t) (now : Stamp) :
    resetGapOk now t = resetGapOk now s := by
  rw [Machine.resetGapOk, Machine.resetGapOk, h.params, h.lastTx]

@[simp] theorem patchOutcome_attached (c : DeviceConfig) (p : List Byte) (s : State) :
    (patchOutcome c p s).attached = s.attached := by unfold patchOutcome; split <;> rfl
@[simp] theorem patchOutcome_dirty (c : DeviceConfig) (p : List Byte) (s : State) :
    (patchOutcome c p s).dirty = true := by unfold patchOutcome; split <;> rfl
@[simp] theorem patchOutcome_lastTx (c : DeviceConfig) (p : List Byte) (s : State) :
    (patchOutcome c p s).lastTx = s.lastTx := by unfold patchOutcome; split <;> rfl
@[simp] theorem patchOutcome_buf (c : DeviceConfig) (p : List Byte) (s : State) :
    (patchOutcome c p s).buf = applyQuads c.pixelCount.toNat (quads s.params p) s.buf := by
  unfold patchOutcome; split <;> rfl

/-- A patch appends one report or nothing (R173). -/
theorem patchOutcome_out_quiet (c : DeviceConfig) (p : List Byte) (s : State) :
    ∃ es, (patchOutcome c p s).out = s.out ++ es ∧
      es.all (fun e => !isEngineEvent e) = true := by
  unfold patchOutcome
  split
  · exact ⟨_, rfl, rfl⟩
  · exact ⟨[], (List.append_nil _).symm, rfl⟩

theorem patchOutcome_onlyPatched (c : DeviceConfig) (p : List Byte) (s : State) :
    OnlyPatched s (patchOutcome c p s) where
  config := by simp
  attached := by simp
  lastTx := by simp
  cfg := by simp
  bufLength := by simp [applyQuads_length]
  port := by simp
  dir := by simp
  out := patchOutcome_out_quiet c p s

/-- A patch on an attached, configured block completes, whatever its payload (R165, R172). -/
theorem exec_writePatch_onlyPatched {s : State} {c : DeviceConfig} (p : List Byte)
    (ha : s.attached = true) (hc : s.cfg = .valid c) :
    ∃ t, exec (.writePatch p) s = .next t ∧ OnlyPatched s t := by
  rcases Nat.lt_or_ge s.params.patchLenOffset p.length with hp | hp
  · exact ⟨_, writePatch_eq ha hp hc, patchOutcome_onlyPatched c p s⟩
  · exact ⟨s, exec_writePatch_ignored (.inr hp), .refl s⟩

/-- Patches one after another complete and are patches together (R158). -/
theorem execAll_writePatch_onlyPatched {s : State} {c : DeviceConfig} (ps : List (List Byte))
    (ha : s.attached = true) (hc : s.cfg = .valid c) :
    ∃ t, execAll (ps.map Instr.writePatch) s = .next t ∧ OnlyPatched s t := by
  induction ps generalizing s with
  | nil => exact ⟨s, rfl, .refl s⟩
  | cons p ps ih =>
    obtain ⟨t, ht, hst⟩ := exec_writePatch_onlyPatched p ha hc
    obtain ⟨u, hu, htu⟩ := ih (hst.attached.trans ha) (hst.cfg.trans hc)
    exact ⟨u, (execAll_cons_of_next ht).trans hu, hst.trans htu⟩

/-- Settles O48: patches leave the block live and its gate open; the show transmits what they left. -/
theorem patchesCoalesceIntoOneFrame : Obligations.PatchesCoalesceIntoOneFrame := by
  intro s c k ps now d h hl ha hgap
  obtain ⟨t, ht, hst⟩ := execAll_writePatch_onlyPatched ps ha hl.cfg
  obtain ⟨es, hes, hquiet⟩ := hst.out
  have hg : resetGapOk now t = true := (hst.resetGapOk now).trans (resetGapOk_iff.mpr hgap)
  obtain ⟨u, -, hshow, hsent, -⟩ := exec_requestShow_transmits d (hst.live hl)
    (hst.port ▸ h.portWf) (hst.attached.trans ha) hg
  exact ⟨t, _, es, ht, hes, hquiet, hshow, hst.params ▸ hsent.out⟩

/-! ### The transition table -/

theorem sched_of_attach {s t : State} {p : List Byte} (hs : BlockInv s)
    (h : exec (.attach p) s = .next t) :
    (t.attachResult = .success ∧ sched t = .pendingShow) ∨
      (t.attachResult = .failure ∧ sched t = .idle) := by
  have hfails (e : ErrKind) :
      sched (attachFails e (if s.attached then release s else s)) = .idle :=
    sched_idle_of_unattached (attachFailed_attachFails hs e).attached
  obtain ⟨_, rfl, ⟨-, rfl⟩ | ⟨_, _, -, -, rfl⟩ | ⟨_, _, _, _, -, -, rfl⟩⟩ := attach_next h
  · exact .inr ⟨rfl, hfails _⟩
  · exact .inr ⟨rfl, hfails _⟩
  · exact .inl ⟨rfl, sched_pendingShow rfl rfl⟩

theorem sched_of_detach {s t : State} (h : exec .detach s = .next t) : sched t = .idle := by
  rw [detach_next h]
  split
  · exact sched_idle_of_unattached rfl
  · next ha => exact sched_idle_of_unattached (Bool.eq_false_of_not_eq_true ha)

theorem sched_of_writePatch {s t : State} {p : List Byte} (h : exec (.writePatch p) s = .next t) :
    sched t = if s.attached = true ∧ s.params.patchLenOffset < p.length then .pendingShow
      else sched s := by
  rcases writePatch_next h with ⟨rfl, hno⟩ | ⟨ha, hp, c, -, rfl⟩
  · rw [if_neg]
    rintro ⟨ha, hp⟩
    rcases hno with hno | hno
    · simp [ha] at hno
    · omega
  · rw [if_pos ⟨ha, hp⟩]
    exact sched_pendingShow (by simp [ha]) (by simp)

theorem sched_of_requestShow {s t : State} {now d : Stamp}
    (h : exec (.requestShow now d) s = .next t) :
    sched t = if s.attached = true ∧ resetGapOk now s = true then .idle else sched s := by
  rcases requestShow_next h with ⟨rfl, hno⟩ | ⟨ha, hg, u, -, rfl⟩
  · rw [if_neg]
    rintro ⟨ha, hg⟩
    simp [ha, hg] at hno
  · rw [if_pos ⟨ha, hg⟩]
    exact sched_idle_of_clean rfl

theorem sched_of_update {s t : State} {now d : Stamp} (h : exec (.update now d) s = .next t) :
    sched t = if s.attached = true ∧ s.dirty = true ∧ refreshOk now s = true ∧
      resetGapOk now s = true then .idle else sched s := by
  rcases update_next h with ⟨rfl, hno⟩ | ⟨ha, hd, hr, hshow⟩
  · rw [if_neg]
    rintro ⟨ha, hd, hr, -⟩
    simp [ha, hd, hr] at hno
  · rw [sched_of_requestShow hshow]
    simp [ha, hd, hr]

/-- Settles O49: a row for each command, read off what the command can do. -/
theorem schedulerTransitionTable : Obligations.SchedulerTransitionTable :=
  fun _ hs => ⟨fun _ _ => sched_of_attach hs, fun _ => sched_of_detach,
    fun _ _ => sched_of_writePatch, fun _ _ _ => sched_of_requestShow, fun _ _ _ => sched_of_update⟩

end Sys2Proof.Machine
end

section
/-! PROOFS (44_buffer_commands). The buffer command: how many quadruples one payload carries (R175), the
last write to each pixel (R168, R169), and what a patch reports and leaves unchanged (R170, R172, R173). -/

namespace Sys2Proof.Machine

open Sys2Proof.Safety

/-! ### The capacity of one command -/

/-- The length byte counts the quadruples, so they take at most as many bytes as it can name (R77, R79). -/
theorem nQuads_mul_quadSize_le (P : Config.Params) (p : List Byte) : nQuads P p * P.quadSize ≤ 255 := by
  cases h : patchLen P p with
  | none => simp [nQuads, h]
  | some len =>
    have hbyte : len.toNat < 256 := len.isLt
    have hdiv := Nat.div_mul_le_self (min len.toNat (p.length - P.patchDataOffset)) P.quadSize
    rw [nQuads_eq h]
    omega

/-- Settles O51: no more quadruples are read than the length byte counts. -/
theorem patchCapacity : Obligations.PatchCapacity := by
  intro P p
  have hbytes : (quads P p).length * P.quadSize ≤ 255 :=
    (Nat.mul_le_mul_right _ (takeQuads_length_le _ _ _)).trans (nQuads_mul_quadSize_le P p)
  exact ⟨hbytes, fun hsize => by rw [hsize] at hbytes; omega⟩

/-! ### A patch that is ignored -/

/-- Settles O54: both conditions are asked for before anything is read or written. -/
theorem patchIgnoredWhenShortOrUnattached : Obligations.PatchIgnoredWhenShortOrUnattached :=
  fun _ _ => exec_writePatch_ignored

/-! ### The last write to a pixel -/

/-- The first quadruple sets what the later ones start from (R168). -/
theorem lastWrite_cons (q : Quad) (qs : List Quad) (i : Nat) (px : Pixel) :
    lastWrite (q :: qs) i px = lastWrite qs i (if q.idx.toNat = i then quadPixel q else px) := by
  unfold lastWrite
  rw [List.reverse_cons, List.find?_append]
  cases qs.reverse.find? (fun q => decide (q.idx.toNat = i)) with
  | some r => rfl
  | none => by_cases hi : q.idx.toNat = i <;> simp [hi]

/-- One quadruple replaces the pixel it addresses, and no other (R58, R169). -/
theorem applyQuad_getElem? {buf : List Pixel} {i : Nat} {px : Pixel} (q : Quad)
    (h : buf[i]? = some px) :
    (applyQuad buf.length q buf)[i]? = some (if q.idx.toNat = i then quadPixel q else px) := by
  obtain ⟨hi, -⟩ := List.getElem?_eq_some_iff.mp h
  unfold applyQuad
  split_ifs with hr hq hq
  · rw [hq, List.getElem?_set_self hi]
  · rw [List.getElem?_set_ne hq, h]
  · simp [inRange, hq, hi] at hr
  · exact h

/-- In-order application leaves each pixel as the last quadruple that addresses it says (R168). -/
theorem applyQuads_getElem? {buf : List Pixel} {i : Nat} {px : Pixel} (qs : List Quad)
    (h : buf[i]? = some px) :
    (applyQuads buf.length qs buf)[i]? = some (lastWrite qs i px) := by
  induction qs generalizing buf px with
  | nil => exact h
  | cons q qs ih =>
    have hrest := ih (applyQuad_getElem? q h)
    rw [applyQuad_length] at hrest
    rw [applyQuads, hrest, lastWrite_cons]

/-! ### What a patch reports and leaves unchanged -/

@[simp] theorem patchOutcome_wave (c : DeviceConfig) (p : List Byte) (s : State) :
    (patchOutcome c p s).wave = s.wave := by unfold patchOutcome; split <;> rfl
@[simp] theorem patchOutcome_cursor (c : DeviceConfig) (p : List Byte) (s : State) :
    (patchOutcome c p s).cursor = s.cursor := by unfold patchOutcome; split <;> rfl
@[simp] theorem patchOutcome_savedIe (c : DeviceConfig) (p : List Byte) (s : State) :
    (patchOutcome c p s).savedIe = s.savedIe := by unfold patchOutcome; split <;> rfl
@[simp] theorem patchOutcome_dly (c : DeviceConfig) (p : List Byte) (s : State) :
    (patchOutcome c p s).dly = s.dly := by unfold patchOutcome; split <;> rfl
@[simp] theorem patchOutcome_attachResult (c : DeviceConfig) (p : List Byte) (s : State) :
    (patchOutcome c p s).attachResult = s.attachResult := by unfold patchOutcome; split <;> rfl

theorem anyOutOfRange_iff {n : Nat} {qs : List Quad} :
    anyOutOfRange n qs = true ↔ ∃ q ∈ qs, n ≤ q.idx.toNat := by
  simp [anyOutOfRange, inRange]

/-- However many quadruples are out of range, a patch makes one report; with none it makes none (R173). -/
theorem patchOutcome_out (c : DeviceConfig) (p : List Byte) (s : State) :
    (patchOutcome c p s).out =
      if ∃ q ∈ quads s.params p, c.pixelCount.toNat ≤ q.idx.toNat
      then s.out ++ [.err (errCode s.params .outOfRangeIndex) (Config.errMessage s.drawIx)]
      else s.out := by
  rw [patchOutcome, apply_ite State.out]
  exact if_congr anyOutOfRange_iff rfl rfl

/-- Settles O53: on a live block the patch completes with `patchOutcome`, read off field by field. -/
theorem writePatchResult : Obligations.WritePatchResult := by
  intro s c k p _ hl ha hp
  have hbuf : (patchOutcome c p s).buf = applyQuads s.buf.length (quads s.params p) s.buf := by
    rw [patchOutcome_buf, hl.bufLength]
  refine ⟨patchOutcome c p s, _, _, writePatch_eq ha hp hl.cfg, errCode_toNat s .outOfRangeIndex,
    ?_, ?_, patchOutcome_dirty c p s, patchOutcome_out c p s, ?_⟩
  · rw [hbuf, applyQuads_length]
  · exact fun i px hpx => hbuf ▸ applyQuads_getElem? _ hpx
  · simp

end Sys2Proof.Machine
end

section
/-! PROOFS (60_exceptions). Which operations report an error, and how often (R193, R195): the reports each
thing an operation can do adds to the trace. -/

namespace Sys2Proof.Machine

open Sys2Proof.Safety

/-! ### The reports of the parts of an operation -/

theorem filter_isErr_bitsTrace (P : Config.Params) (l : Line) (bs : List Bool) :
    (bitsTrace P l bs).filter isErr = [] := by
  have hnone : (bitsTrace P l bs).countP isErr = 0 * bs.length :=
    countP_bitsTrace_of_forall bs fun b => by cases b <;> rfl
  rw [Nat.zero_mul, List.countP_eq_length_filter] at hnone
  exact List.eq_nil_of_length_eq_zero hnone

/-- The engine reports nothing (R193). -/
theorem EngineRan.filter_isErr {s t : State} (h : EngineRan s t) :
    t.out.filter isErr = s.out.filter isErr := by
  obtain ⟨l, bs, hout⟩ := h.out
  rw [hout, List.filter_append, filter_isErr_bitsTrace, List.append_nil]

/-- The state an ATTACH works on, released or not, has the reports there were (R109). -/
theorem filter_isErr_of_released {s s0 : State} (h : s0 = s ∨ s0 = release s) :
    s0.out.filter isErr = s.out.filter isErr := by
  rcases h with rfl | rfl
  · rfl
  · rw [release_out]

/-- A failed ATTACH reports once (R102, R103). -/
theorem filter_isErr_attachFails (k : ErrKind) (s : State) :
    ∃ e, (attachFails k s).out.filter isErr = s.out.filter isErr ++ [e] :=
  ⟨_, by rw [attachFails_out, List.filter_append]; rfl⟩

/-- A completed ATTACH reports nothing. -/
theorem filter_isErr_attachTo (pin n : Byte) (g : PortGroup) (k : Nat) (s : State) :
    (attachTo pin n g k s).out.filter isErr = s.out.filter isErr := by
  simp [isErr]

/-- A patch reports once or not at all (R173). -/
theorem filter_isErr_patchOutcome (c : DeviceConfig) (p : List Byte) (s : State) :
    (patchOutcome c p s).out.filter isErr = s.out.filter isErr ∨
      ∃ e, (patchOutcome c p s).out.filter isErr = s.out.filter isErr ++ [e] := by
  rw [patchOutcome_out]
  split
  · exact .inr ⟨_, by rw [List.filter_append]; rfl⟩
  · exact .inl rfl

/-! ### Any operation -/

/-- An operation reports nothing, or it is ATTACH or WRITE_PATCH and reports once (R193, R195). -/
theorem Ran.report_cases {i : Instr} {s t : State} (h : Ran i s t) :
    t.out.filter isErr = s.out.filter isErr ∨
      ((∃ p, i = .attach p) ∨ ∃ p, i = .writePatch p) ∧
        ∃ e, t.out.filter isErr = s.out.filter isErr ++ [e] := by
  cases h with
  | same h => exact .inl (h ▸ rfl)
  | engine r => exact .inl r.filter_isErr
  | shown u d r _ h => exact .inl (h ▸ r.filter_isErr)
  | patch p c hi _ _ h =>
    exact h ▸ (filter_isErr_patchOutcome c p s).imp_right fun hone => ⟨.inr ⟨p, hi⟩, hone⟩
  | attachFailed p k s0 hi h0 h =>
    obtain ⟨e, hone⟩ := filter_isErr_attachFails k s0
    exact .inr ⟨.inl ⟨p, hi⟩, e, by rw [h, hone, filter_isErr_of_released h0]⟩
  | attachDone _ pin n g k s0 _ _ h0 _ h =>
    exact .inl (by rw [h, filter_isErr_attachTo, filter_isErr_of_released h0])
  | released _ h => exact .inl (h ▸ rfl)

/-- Settles O56: the one report, if there is one, is ATTACH's or WRITE_PATCH's. -/
theorem onlyAttachAndPatchRaise : Obligations.OnlyAttachAndPatchRaise := by
  intro i s t h
  rcases (exec_ran h).report_cases with hnone | ⟨hi, e, hone⟩
  · exact ⟨by simp [hnone], fun _ _ => hnone⟩
  · refine ⟨by simp [hone], fun ha hp => ?_⟩
    rcases hi with ⟨p, rfl⟩ | ⟨p, rfl⟩
    · exact absurd rfl (ha p)
    · exact absurd rfl (hp p)

end Sys2Proof.Machine
end

section
/-! PROOFS (70_reset_and_hazards). The block as reset leaves it (R211); other users of the port registers
(R225, R195): which writes touch the block's own bit, and what the rest of them do. -/

namespace Sys2Proof.Machine

open Sys2Proof.Safety

/-- Settles O1: every field is at its reset value, and an empty register file reads 0 everywhere. -/
theorem resetLeavesBlockUnattached : Obligations.ResetLeavesBlockUnattached :=
  ⟨rfl, rfl, rfl, rfl, rfl, rfl, sched_idle_of_unattached rfl, rfl, fun _ => rfl, fun _ => rfl⟩

/-! ### Other users' writes -/

/-- The block's only bit is its `pin_mask` in the group it is configured for (R25, R225). -/
theorem ownMask_of_attached {s : State} {c : DeviceConfig} (ha : s.attached = true)
    (hc : s.cfg = .valid c) (g : PortGroup) :
    ownMask g s = if c.portSel = g then c.pinMask else 0 := by
  simp [ownMask, ha, hc]

/-- A write keeps the block's bits unless it is to the block's group and changes its bit there. -/
theorem keepsBits_ownMask_iff {s : State} {c : DeviceConfig} (ha : s.attached = true)
    (hc : s.cfg = .valid c) (g : PortGroup) (old new : Byte) :
    keepsBits (ownMask g s) old new = true ↔
      ¬ (g = c.portSel ∧ (old ^^^ new) &&& c.pinMask ≠ 0) := by
  rw [ownMask_of_attached ha hc]
  by_cases hg : g = c.portSel
  · simp [keepsBits, hg]
  · simp [keepsBits, hg, Ne.symm hg]

/-- Another user's write of an existing `PORT` register of an attached block. -/
theorem otherWritesPort_of_attached {s : State} {c : DeviceConfig} {g : PortGroup} (v : Byte)
    (ha : s.attached = true) (hc : s.cfg = .valid c) (hg : g ∈ s.params.portGroups) :
    otherWritesPort g v s =
      if g = c.portSel ∧ (portReg g s ^^^ v) &&& c.pinMask ≠ 0 then .refused .ownPinWritten
      else .next (writePortReg g v s) := by
  have hexists : groupExists s.params g ≠ false := by simp [groupExists, hg]
  rw [otherWritesPort, if_neg hexists, ite_cond_congr (propext (keepsBits_ownMask_iff ha hc ..)),
    ite_not]

/-- Another user's write of an existing `DIR` register of an attached block. -/
theorem otherWritesDir_of_attached {s : State} {c : DeviceConfig} {g : PortGroup} (v : Byte)
    (ha : s.attached = true) (hc : s.cfg = .valid c) (hg : g ∈ s.params.portGroups) :
    otherWritesDir g v s =
      if g = c.portSel ∧ (dirReg g s ^^^ v) &&& c.pinMask ≠ 0 then .refused .ownPinWritten
      else .next (writeDirReg g v s) := by
  have hexists : groupExists s.params g ≠ false := by simp [groupExists, hg]
  rw [otherWritesDir, if_neg hexists, ite_cond_congr (propext (keepsBits_ownMask_iff ha hc ..)),
    ite_not]

/-- Settles O13: the step is the other user's write, which is refused on the block's own bit and is
else the write of one register. -/
theorem otherUsersKeepOffOwnPin : Obligations.OtherUsersKeepOffOwnPin := by
  intro s c k g v rest hinv hlive ha hb hg
  constructor
  · intro hi
    have hstep := (step_writePort hb hi).trans (otherWritesPort_of_attached v ha hlive.cfg hg)
    split
    · next hown => exact hstep.trans (if_pos hown)
    · next hother =>
      exact ⟨_, hstep.trans (if_neg hother), Memory.read_write_same g v hinv.portWf,
        fun _ hne => Memory.read_write_other v hinv.portWf hne, rfl, rfl, rfl, rfl⟩
  · intro hi
    have hstep := (step_writeDir hb hi).trans (otherWritesDir_of_attached v ha hlive.cfg hg)
    split
    · next hown => exact hstep.trans (if_pos hown)
    · next hother =>
      exact ⟨_, hstep.trans (if_neg hother), Memory.read_write_same g v hinv.dirWf,
        fun _ hne => Memory.read_write_other v hinv.dirWf hne, rfl, rfl, rfl, rfl⟩

end Sys2Proof.Machine
end
